-- ==== Sys2Proof/Word.lean ====
section
/-! DEFINITION. The byte and word types, and the names the instruction set uses for registers, pairs, flags,
branch conditions and ALU operations (spec rules R6, R10, R11, R13, R52, R57, R58). -/

namespace Sys2Proof

/-- A byte: 8 bits (R6). -/
abbrev Byte := BitVec 8

/-- A word: 16 bits (R6); an address, the value of SP, PC or a register pair. -/
abbrev Word := BitVec 16

/-- The seven 8-bit registers an instruction can name as an operand (R12, R52). F has no index and index 6
selects the memory byte at HL, so neither is here. -/
inductive Reg8 where
  | b | c | d | e | h | l | a
deriving DecidableEq, Repr

/-- The register index of the encoding (R7, R52). -/
def Reg8.index : Reg8 → Nat
  | .b => 0
  | .c => 1
  | .d => 2
  | .e => 3
  | .h => 4
  | .l => 5
  | .a => 7

/-- The register pairs, views of two 8-bit registers (R11). -/
inductive Pair16 where
  | af | bc | de | hl
deriving DecidableEq, Repr

/-- The four flags, by the names of R13. -/
inductive Flag where
  | z | n | h | c
deriving DecidableEq, Repr

/-- The bit of F that holds a flag (R13). -/
def Flag.bit : Flag → Nat
  | .z => 7
  | .n => 6
  | .h => 5
  | .c => 4

/-- The four branch conditions (R57, R130). -/
inductive Cond where
  | nz | z | nc | c
deriving DecidableEq, Repr

/-- The five registered ALU operations (R58). -/
inductive AluOp where
  | add | adc | sub | xor | cp
deriving DecidableEq, Repr

end Sys2Proof
end

