-- ==== Sys2Proof/Syntax.lean ====
section
/-! DEFINITION. The instructions: one constructor per mnemonic of spec/opcode_table.json, in the order of their
opcode bytes (R54). Every registered row has a constructor of its own; the 133 EMPTY rows share one mnemonic and one
constructor, which carries the byte (R55). -/

namespace Sys2Proof

/-- The 123 registered instructions (R54) and the EMPTY slot (R55). `d8` is an unsigned immediate, `r8` a
signed offset, `a16` a 16-bit address, as R53 assembles them. -/
inductive Instr where
  /-- EMPTY: an opcode byte with no handler (R55). -/
  | empty (opcode : Byte)
  /-- LD B,d8 (`0x06`, R87). -/
  | ldBImm (d8 : Byte)
  /-- LD C,d8 (`0x0E`, R87). -/
  | ldCImm (d8 : Byte)
  /-- LD D,d8 (`0x16`, R87). -/
  | ldDImm (d8 : Byte)
  /-- LD E,d8 (`0x1E`, R87). -/
  | ldEImm (d8 : Byte)
  /-- JR NZ,r8 (`0x20`, R134). -/
  | jrNz (r8 : Byte)
  /-- LD H,d8 (`0x26`, R87). -/
  | ldHImm (d8 : Byte)
  /-- JR Z,r8 (`0x28`, R135). -/
  | jrZ (r8 : Byte)
  /-- LD L,d8 (`0x2E`, R87). -/
  | ldLImm (d8 : Byte)
  /-- JR NC,r8 (`0x30`, R136). -/
  | jrNc (r8 : Byte)
  /-- JR C,r8 (`0x38`, R137). -/
  | jrC (r8 : Byte)
  /-- LD A,d8 (`0x3E`, R87). -/
  | ldAImm (d8 : Byte)
  /-- LD B,B (`0x40`, R86). -/
  | ldBB
  /-- LD B,C (`0x41`, R85). -/
  | ldBC
  /-- LD B,D (`0x42`, R85). -/
  | ldBD
  /-- LD B,E (`0x43`, R85). -/
  | ldBE
  /-- LD B,H (`0x44`, R85). -/
  | ldBH
  /-- LD B,L (`0x45`, R85). -/
  | ldBL
  /-- LD B,(HL) (`0x46`, R88). -/
  | ldBAtHL
  /-- LD B,A (`0x47`, R85). -/
  | ldBA
  /-- LD C,B (`0x48`, R85). -/
  | ldCB
  /-- LD C,C (`0x49`, R86). -/
  | ldCC
  /-- LD C,D (`0x4A`, R85). -/
  | ldCD
  /-- LD C,E (`0x4B`, R85). -/
  | ldCE
  /-- LD C,H (`0x4C`, R85). -/
  | ldCH
  /-- LD C,L (`0x4D`, R85). -/
  | ldCL
  /-- LD C,(HL) (`0x4E`, R88). -/
  | ldCAtHL
  /-- LD C,A (`0x4F`, R85). -/
  | ldCA
  /-- LD D,B (`0x50`, R85). -/
  | ldDB
  /-- LD D,C (`0x51`, R85). -/
  | ldDC
  /-- LD D,D (`0x52`, R86). -/
  | ldDD
  /-- LD D,E (`0x53`, R85). -/
  | ldDE
  /-- LD D,H (`0x54`, R85). -/
  | ldDH
  /-- LD D,L (`0x55`, R85). -/
  | ldDL
  /-- LD D,(HL) (`0x56`, R88). -/
  | ldDAtHL
  /-- LD D,A (`0x57`, R85). -/
  | ldDA
  /-- LD E,B (`0x58`, R85). -/
  | ldEB
  /-- LD E,C (`0x59`, R85). -/
  | ldEC
  /-- LD E,D (`0x5A`, R85). -/
  | ldED
  /-- LD E,E (`0x5B`, R86). -/
  | ldEE
  /-- LD E,H (`0x5C`, R85). -/
  | ldEH
  /-- LD E,L (`0x5D`, R85). -/
  | ldEL
  /-- LD E,(HL) (`0x5E`, R88). -/
  | ldEAtHL
  /-- LD E,A (`0x5F`, R85). -/
  | ldEA
  /-- LD H,B (`0x60`, R85). -/
  | ldHB
  /-- LD H,C (`0x61`, R85). -/
  | ldHC
  /-- LD H,D (`0x62`, R85). -/
  | ldHD
  /-- LD H,E (`0x63`, R85). -/
  | ldHE
  /-- LD H,H (`0x64`, R86). -/
  | ldHH
  /-- LD H,L (`0x65`, R85). -/
  | ldHL
  /-- LD H,(HL) (`0x66`, R88). -/
  | ldHAtHL
  /-- LD H,A (`0x67`, R85). -/
  | ldHA
  /-- LD L,B (`0x68`, R85). -/
  | ldLB
  /-- LD L,C (`0x69`, R85). -/
  | ldLC
  /-- LD L,D (`0x6A`, R85). -/
  | ldLD
  /-- LD L,E (`0x6B`, R85). -/
  | ldLE
  /-- LD L,H (`0x6C`, R85). -/
  | ldLH
  /-- LD L,L (`0x6D`, R86). -/
  | ldLL
  /-- LD L,(HL) (`0x6E`, R88). -/
  | ldLAtHL
  /-- LD L,A (`0x6F`, R85). -/
  | ldLA
  /-- LD (HL),B (`0x70`, R89). -/
  | ldAtHLB
  /-- LD (HL),C (`0x71`, R89). -/
  | ldAtHLC
  /-- LD (HL),D (`0x72`, R89). -/
  | ldAtHLD
  /-- LD (HL),E (`0x73`, R89). -/
  | ldAtHLE
  /-- LD (HL),H (`0x74`, R89). -/
  | ldAtHLH
  /-- LD (HL),L (`0x75`, R89). -/
  | ldAtHLL
  /-- HALT (`0x76`, R138). -/
  | halt
  /-- LD (HL),A (`0x77`, R89). -/
  | ldAtHLA
  /-- LD A,B (`0x78`, R85). -/
  | ldAB
  /-- LD A,C (`0x79`, R85). -/
  | ldAC
  /-- LD A,D (`0x7A`, R85). -/
  | ldAD
  /-- LD A,E (`0x7B`, R85). -/
  | ldAE
  /-- LD A,H (`0x7C`, R85). -/
  | ldAH
  /-- LD A,L (`0x7D`, R85). -/
  | ldAL
  /-- LD A,(HL) (`0x7E`, R88). -/
  | ldAAtHL
  /-- LD A,A (`0x7F`, R86). -/
  | ldAA
  /-- ADD A,B (`0x80`, R105). -/
  | addAB
  /-- ADD A,C (`0x81`, R105). -/
  | addAC
  /-- ADD A,D (`0x82`, R105). -/
  | addAD
  /-- ADD A,E (`0x83`, R105). -/
  | addAE
  /-- ADD A,H (`0x84`, R105). -/
  | addAH
  /-- ADD A,L (`0x85`, R105). -/
  | addAL
  /-- ADD A,(HL) (`0x86`, R106). -/
  | addAAtHL
  /-- ADD A,A (`0x87`, R105). -/
  | addAA
  /-- ADC A,B (`0x88`, R108). -/
  | adcAB
  /-- ADC A,C (`0x89`, R108). -/
  | adcAC
  /-- ADC A,D (`0x8A`, R108). -/
  | adcAD
  /-- ADC A,E (`0x8B`, R108). -/
  | adcAE
  /-- ADC A,H (`0x8C`, R108). -/
  | adcAH
  /-- ADC A,L (`0x8D`, R108). -/
  | adcAL
  /-- ADC A,(HL) (`0x8E`, R109). -/
  | adcAAtHL
  /-- ADC A,A (`0x8F`, R108). -/
  | adcAA
  /-- SUB B (`0x90`, R111). -/
  | subB
  /-- SUB C (`0x91`, R111). -/
  | subC
  /-- SUB D (`0x92`, R111). -/
  | subD
  /-- SUB E (`0x93`, R111). -/
  | subE
  /-- SUB H (`0x94`, R111). -/
  | subH
  /-- SUB L (`0x95`, R111). -/
  | subL
  /-- SUB (HL) (`0x96`, R112). -/
  | subAtHL
  /-- SUB A (`0x97`, R111). -/
  | subA
  /-- XOR B (`0xA8`, R114). -/
  | xorB
  /-- XOR C (`0xA9`, R114). -/
  | xorC
  /-- XOR D (`0xAA`, R114). -/
  | xorD
  /-- XOR E (`0xAB`, R114). -/
  | xorE
  /-- XOR H (`0xAC`, R114). -/
  | xorH
  /-- XOR L (`0xAD`, R114). -/
  | xorL
  /-- XOR (HL) (`0xAE`, R115). -/
  | xorAtHL
  /-- XOR A (`0xAF`, R114). -/
  | xorA
  /-- CP B (`0xB8`, R117). -/
  | cpB
  /-- CP C (`0xB9`, R117). -/
  | cpC
  /-- CP D (`0xBA`, R117). -/
  | cpD
  /-- CP E (`0xBB`, R117). -/
  | cpE
  /-- CP H (`0xBC`, R117). -/
  | cpH
  /-- CP L (`0xBD`, R117). -/
  | cpL
  /-- CP (HL) (`0xBE`, R118). -/
  | cpAtHL
  /-- CP A (`0xBF`, R117). -/
  | cpA
  /-- JP a16 (`0xC3`, R131). -/
  | jpA16 (a16 : Word)
  /-- ADD A,d8 (`0xC6`, R107). -/
  | addAImm (d8 : Byte)
  /-- RET (`0xC9`, R133). -/
  | ret
  /-- CALL a16 (`0xCD`, R132). -/
  | callA16 (a16 : Word)
  /-- ADC A,d8 (`0xCE`, R110). -/
  | adcAImm (d8 : Byte)
  /-- SUB d8 (`0xD6`, R113). -/
  | subImm (d8 : Byte)
  /-- XOR d8 (`0xEE`, R116). -/
  | xorImm (d8 : Byte)
  /-- CP d8 (`0xFE`, R119). -/
  | cpImm (d8 : Byte)
deriving DecidableEq, Repr

end Sys2Proof
end

