-- ==== Sys2Proof/WellFormed.lean ====
section
/-! DEFINITION. Which terms of `Instr` are instructions of the hardware: `empty` carries one of the 133 EMPTY bytes
(R55). Every operand value of a registered instruction is legal (R60), so nothing else is checked. -/

namespace Sys2Proof

/-- The EMPTY bytes as R55 lists them, by inclusive ranges. -/
def emptyRanges : List (Nat × Nat) :=
  [(0x00, 0x05), (0x07, 0x0D), (0x0F, 0x15), (0x17, 0x1D), (0x1F, 0x1F), (0x21, 0x25), (0x27, 0x27),
   (0x29, 0x2D), (0x2F, 0x2F), (0x31, 0x37), (0x39, 0x3D), (0x3F, 0x3F)] ++
  [(0x98, 0x9F), (0xA0, 0xA7), (0xB0, 0xB7)] ++
  [(0xC0, 0xC2), (0xC4, 0xC4), (0xC5, 0xC5), (0xC7, 0xC7), (0xC8, 0xC8), (0xCA, 0xCC), (0xCF, 0xCF),
   (0xD0, 0xD5), (0xD7, 0xDF), (0xE0, 0xED), (0xEF, 0xEF), (0xF0, 0xFD), (0xFF, 0xFF)]

/-- Is the byte one of the 133 EMPTY bytes of R55? -/
def isEmptyByte (op : Byte) : Bool :=
  emptyRanges.any fun r => decide (r.1 ≤ op.toNat) && decide (op.toNat ≤ r.2)

/-- An instruction of the hardware. -/
def Instr.wf : Instr → Bool
  | .empty op => isEmptyByte op
  | .ldBImm _ => true
  | .ldCImm _ => true
  | .ldDImm _ => true
  | .ldEImm _ => true
  | .jrNz _ => true
  | .ldHImm _ => true
  | .jrZ _ => true
  | .ldLImm _ => true
  | .jrNc _ => true
  | .jrC _ => true
  | .ldAImm _ => true
  | .ldBB => true
  | .ldBC => true
  | .ldBD => true
  | .ldBE => true
  | .ldBH => true
  | .ldBL => true
  | .ldBAtHL => true
  | .ldBA => true
  | .ldCB => true
  | .ldCC => true
  | .ldCD => true
  | .ldCE => true
  | .ldCH => true
  | .ldCL => true
  | .ldCAtHL => true
  | .ldCA => true
  | .ldDB => true
  | .ldDC => true
  | .ldDD => true
  | .ldDE => true
  | .ldDH => true
  | .ldDL => true
  | .ldDAtHL => true
  | .ldDA => true
  | .ldEB => true
  | .ldEC => true
  | .ldED => true
  | .ldEE => true
  | .ldEH => true
  | .ldEL => true
  | .ldEAtHL => true
  | .ldEA => true
  | .ldHB => true
  | .ldHC => true
  | .ldHD => true
  | .ldHE => true
  | .ldHH => true
  | .ldHL => true
  | .ldHAtHL => true
  | .ldHA => true
  | .ldLB => true
  | .ldLC => true
  | .ldLD => true
  | .ldLE => true
  | .ldLH => true
  | .ldLL => true
  | .ldLAtHL => true
  | .ldLA => true
  | .ldAtHLB => true
  | .ldAtHLC => true
  | .ldAtHLD => true
  | .ldAtHLE => true
  | .ldAtHLH => true
  | .ldAtHLL => true
  | .halt => true
  | .ldAtHLA => true
  | .ldAB => true
  | .ldAC => true
  | .ldAD => true
  | .ldAE => true
  | .ldAH => true
  | .ldAL => true
  | .ldAAtHL => true
  | .ldAA => true
  | .addAB => true
  | .addAC => true
  | .addAD => true
  | .addAE => true
  | .addAH => true
  | .addAL => true
  | .addAAtHL => true
  | .addAA => true
  | .adcAB => true
  | .adcAC => true
  | .adcAD => true
  | .adcAE => true
  | .adcAH => true
  | .adcAL => true
  | .adcAAtHL => true
  | .adcAA => true
  | .subB => true
  | .subC => true
  | .subD => true
  | .subE => true
  | .subH => true
  | .subL => true
  | .subAtHL => true
  | .subA => true
  | .xorB => true
  | .xorC => true
  | .xorD => true
  | .xorE => true
  | .xorH => true
  | .xorL => true
  | .xorAtHL => true
  | .xorA => true
  | .cpB => true
  | .cpC => true
  | .cpD => true
  | .cpE => true
  | .cpH => true
  | .cpL => true
  | .cpAtHL => true
  | .cpA => true
  | .jpA16 _ => true
  | .addAImm _ => true
  | .ret => true
  | .callA16 _ => true
  | .adcAImm _ => true
  | .subImm _ => true
  | .xorImm _ => true
  | .cpImm _ => true

end Sys2Proof
end

