-- ==== Sys2Proof/Decode.lean ====
section
/-! DEFINITION. Decoding and encoding: the 256-slot dispatch table (R54, R61), the decoder over bytes (R50, R51, R53,
R56), the encoder, the byte-order helpers of R33 and R8, and names for the members of each instruction form. -/

namespace Sys2Proof

/-- `hi ++ lo` (R7): the word with the given high and low byte. -/
def wordOf (hi lo : Byte) : Word := hi ++ lo

/-- `w[15:8]` (R7). -/
def highByte (w : Word) : Byte := w.extractLsb' 8 8

/-- `w[7:0]` (R7). -/
def lowByte (w : Word) : Byte := w.extractLsb' 0 8

/-- A slot of the dispatch table (R61): EMPTY, or a registered instruction, which still waits for the operand bytes of
its format (R51). -/
inductive Slot where
  | empty
  | op (i : Instr)
  | opD8 (mk : Byte → Instr)
  | opR8 (mk : Byte → Instr)
  | opA16 (mk : Word → Instr)

/-- The number of bytes a slot's instruction has (R56); an EMPTY slot consumes its one byte. -/
def Slot.length : Slot → Nat
  | .empty => 1
  | .op _ => 1
  | .opD8 _ => 2
  | .opR8 _ => 2
  | .opA16 _ => 3

/-- Row 0x of the grid of R54. -/
def dispatchRow0 : List Slot :=
  [.empty, .empty, .empty, .empty,
   .empty, .empty, .opD8 .ldBImm, .empty,
   .empty, .empty, .empty, .empty,
   .empty, .empty, .opD8 .ldCImm, .empty]

/-- Row 1x of the grid of R54. -/
def dispatchRow1 : List Slot :=
  [.empty, .empty, .empty, .empty,
   .empty, .empty, .opD8 .ldDImm, .empty,
   .empty, .empty, .empty, .empty,
   .empty, .empty, .opD8 .ldEImm, .empty]

/-- Row 2x of the grid of R54. -/
def dispatchRow2 : List Slot :=
  [.opR8 .jrNz, .empty, .empty, .empty,
   .empty, .empty, .opD8 .ldHImm, .empty,
   .opR8 .jrZ, .empty, .empty, .empty,
   .empty, .empty, .opD8 .ldLImm, .empty]

/-- Row 3x of the grid of R54. -/
def dispatchRow3 : List Slot :=
  [.opR8 .jrNc, .empty, .empty, .empty,
   .empty, .empty, .empty, .empty,
   .opR8 .jrC, .empty, .empty, .empty,
   .empty, .empty, .opD8 .ldAImm, .empty]

/-- Row 4x of the grid of R54. -/
def dispatchRow4 : List Slot :=
  [.op .ldBB, .op .ldBC, .op .ldBD, .op .ldBE,
   .op .ldBH, .op .ldBL, .op .ldBAtHL, .op .ldBA,
   .op .ldCB, .op .ldCC, .op .ldCD, .op .ldCE,
   .op .ldCH, .op .ldCL, .op .ldCAtHL, .op .ldCA]

/-- Row 5x of the grid of R54. -/
def dispatchRow5 : List Slot :=
  [.op .ldDB, .op .ldDC, .op .ldDD, .op .ldDE,
   .op .ldDH, .op .ldDL, .op .ldDAtHL, .op .ldDA,
   .op .ldEB, .op .ldEC, .op .ldED, .op .ldEE,
   .op .ldEH, .op .ldEL, .op .ldEAtHL, .op .ldEA]

/-- Row 6x of the grid of R54. -/
def dispatchRow6 : List Slot :=
  [.op .ldHB, .op .ldHC, .op .ldHD, .op .ldHE,
   .op .ldHH, .op .ldHL, .op .ldHAtHL, .op .ldHA,
   .op .ldLB, .op .ldLC, .op .ldLD, .op .ldLE,
   .op .ldLH, .op .ldLL, .op .ldLAtHL, .op .ldLA]

/-- Row 7x of the grid of R54. -/
def dispatchRow7 : List Slot :=
  [.op .ldAtHLB, .op .ldAtHLC, .op .ldAtHLD, .op .ldAtHLE,
   .op .ldAtHLH, .op .ldAtHLL, .op .halt, .op .ldAtHLA,
   .op .ldAB, .op .ldAC, .op .ldAD, .op .ldAE,
   .op .ldAH, .op .ldAL, .op .ldAAtHL, .op .ldAA]

/-- Row 8x of the grid of R54. -/
def dispatchRow8 : List Slot :=
  [.op .addAB, .op .addAC, .op .addAD, .op .addAE,
   .op .addAH, .op .addAL, .op .addAAtHL, .op .addAA,
   .op .adcAB, .op .adcAC, .op .adcAD, .op .adcAE,
   .op .adcAH, .op .adcAL, .op .adcAAtHL, .op .adcAA]

/-- Row 9x of the grid of R54. -/
def dispatchRow9 : List Slot :=
  [.op .subB, .op .subC, .op .subD, .op .subE,
   .op .subH, .op .subL, .op .subAtHL, .op .subA,
   .empty, .empty, .empty, .empty,
   .empty, .empty, .empty, .empty]

/-- Row Ax of the grid of R54. -/
def dispatchRowA : List Slot :=
  [.empty, .empty, .empty, .empty,
   .empty, .empty, .empty, .empty,
   .op .xorB, .op .xorC, .op .xorD, .op .xorE,
   .op .xorH, .op .xorL, .op .xorAtHL, .op .xorA]

/-- Row Bx of the grid of R54. -/
def dispatchRowB : List Slot :=
  [.empty, .empty, .empty, .empty,
   .empty, .empty, .empty, .empty,
   .op .cpB, .op .cpC, .op .cpD, .op .cpE,
   .op .cpH, .op .cpL, .op .cpAtHL, .op .cpA]

/-- Row Cx of the grid of R54. -/
def dispatchRowC : List Slot :=
  [.empty, .empty, .empty, .opA16 .jpA16,
   .empty, .empty, .opD8 .addAImm, .empty,
   .empty, .op .ret, .empty, .empty,
   .empty, .opA16 .callA16, .opD8 .adcAImm, .empty]

/-- Row Dx of the grid of R54. -/
def dispatchRowD : List Slot :=
  [.empty, .empty, .empty, .empty,
   .empty, .empty, .opD8 .subImm, .empty,
   .empty, .empty, .empty, .empty,
   .empty, .empty, .empty, .empty]

/-- Row Ex of the grid of R54. -/
def dispatchRowE : List Slot :=
  [.empty, .empty, .empty, .empty,
   .empty, .empty, .empty, .empty,
   .empty, .empty, .empty, .empty,
   .empty, .empty, .opD8 .xorImm, .empty]

/-- Row Fx of the grid of R54. -/
def dispatchRowF : List Slot :=
  [.empty, .empty, .empty, .empty,
   .empty, .empty, .empty, .empty,
   .empty, .empty, .empty, .empty,
   .empty, .empty, .opD8 .cpImm, .empty]

/-- The dispatch table: 256 slots indexed by the opcode byte (R54, R61). A constant of the hardware (R22). -/
def dispatchTable : List Slot :=
  dispatchRow0 ++ dispatchRow1 ++ dispatchRow2 ++ dispatchRow3 ++ dispatchRow4 ++ dispatchRow5 ++ dispatchRow6 ++
  dispatchRow7 ++ dispatchRow8 ++ dispatchRow9 ++ dispatchRowA ++ dispatchRowB ++ dispatchRowC ++ dispatchRowD ++
  dispatchRowE ++ dispatchRowF

/-- `decode : byte -> Slot` of R61: the slot of an opcode byte. -/
def decodeOpcode (op : Byte) : Slot := dispatchTable.getD op.toNat .empty

/-- Why a list of bytes holds no whole instruction. -/
inductive DecodeError where
  /-- There is no byte at all. -/
  | noOpcode
  /-- The opcode is registered and its operand bytes are not all there. -/
  | missingOperand (opcode : Byte)
deriving DecidableEq, Repr

/-- The instruction at the head of a list of bytes, and the bytes after it (R50, R51, R53). Total: an EMPTY byte
decodes to `empty` (its step faults, R55), and a list that ends too early is rejected by name. -/
def decode : List Byte → Except DecodeError (Instr × List Byte)
  | [] => .error .noOpcode
  | op :: rest =>
    match decodeOpcode op, rest with
    | .empty, rest => .ok (.empty op, rest)
    | .op i, rest => .ok (i, rest)
    | .opD8 mk, d8 :: rest => .ok (mk d8, rest)
    | .opR8 mk, r8 :: rest => .ok (mk r8, rest)
    | .opA16 mk, lo :: hi :: rest => .ok (mk (wordOf hi lo), rest)
    | .opD8 _, [] => .error (.missingOperand op)
    | .opR8 _, [] => .error (.missingOperand op)
    | .opA16 _, [_] => .error (.missingOperand op)
    | .opA16 _, [] => .error (.missingOperand op)

/-- The opcode byte of an instruction, from the list of R54. -/
def Instr.opcode : Instr → Byte
  | .empty op => op
  | .ldBImm _ => 0x06#8
  | .ldCImm _ => 0x0E#8
  | .ldDImm _ => 0x16#8
  | .ldEImm _ => 0x1E#8
  | .jrNz _ => 0x20#8
  | .ldHImm _ => 0x26#8
  | .jrZ _ => 0x28#8
  | .ldLImm _ => 0x2E#8
  | .jrNc _ => 0x30#8
  | .jrC _ => 0x38#8
  | .ldAImm _ => 0x3E#8
  | .ldBB => 0x40#8
  | .ldBC => 0x41#8
  | .ldBD => 0x42#8
  | .ldBE => 0x43#8
  | .ldBH => 0x44#8
  | .ldBL => 0x45#8
  | .ldBAtHL => 0x46#8
  | .ldBA => 0x47#8
  | .ldCB => 0x48#8
  | .ldCC => 0x49#8
  | .ldCD => 0x4A#8
  | .ldCE => 0x4B#8
  | .ldCH => 0x4C#8
  | .ldCL => 0x4D#8
  | .ldCAtHL => 0x4E#8
  | .ldCA => 0x4F#8
  | .ldDB => 0x50#8
  | .ldDC => 0x51#8
  | .ldDD => 0x52#8
  | .ldDE => 0x53#8
  | .ldDH => 0x54#8
  | .ldDL => 0x55#8
  | .ldDAtHL => 0x56#8
  | .ldDA => 0x57#8
  | .ldEB => 0x58#8
  | .ldEC => 0x59#8
  | .ldED => 0x5A#8
  | .ldEE => 0x5B#8
  | .ldEH => 0x5C#8
  | .ldEL => 0x5D#8
  | .ldEAtHL => 0x5E#8
  | .ldEA => 0x5F#8
  | .ldHB => 0x60#8
  | .ldHC => 0x61#8
  | .ldHD => 0x62#8
  | .ldHE => 0x63#8
  | .ldHH => 0x64#8
  | .ldHL => 0x65#8
  | .ldHAtHL => 0x66#8
  | .ldHA => 0x67#8
  | .ldLB => 0x68#8
  | .ldLC => 0x69#8
  | .ldLD => 0x6A#8
  | .ldLE => 0x6B#8
  | .ldLH => 0x6C#8
  | .ldLL => 0x6D#8
  | .ldLAtHL => 0x6E#8
  | .ldLA => 0x6F#8
  | .ldAtHLB => 0x70#8
  | .ldAtHLC => 0x71#8
  | .ldAtHLD => 0x72#8
  | .ldAtHLE => 0x73#8
  | .ldAtHLH => 0x74#8
  | .ldAtHLL => 0x75#8
  | .halt => 0x76#8
  | .ldAtHLA => 0x77#8
  | .ldAB => 0x78#8
  | .ldAC => 0x79#8
  | .ldAD => 0x7A#8
  | .ldAE => 0x7B#8
  | .ldAH => 0x7C#8
  | .ldAL => 0x7D#8
  | .ldAAtHL => 0x7E#8
  | .ldAA => 0x7F#8
  | .addAB => 0x80#8
  | .addAC => 0x81#8
  | .addAD => 0x82#8
  | .addAE => 0x83#8
  | .addAH => 0x84#8
  | .addAL => 0x85#8
  | .addAAtHL => 0x86#8
  | .addAA => 0x87#8
  | .adcAB => 0x88#8
  | .adcAC => 0x89#8
  | .adcAD => 0x8A#8
  | .adcAE => 0x8B#8
  | .adcAH => 0x8C#8
  | .adcAL => 0x8D#8
  | .adcAAtHL => 0x8E#8
  | .adcAA => 0x8F#8
  | .subB => 0x90#8
  | .subC => 0x91#8
  | .subD => 0x92#8
  | .subE => 0x93#8
  | .subH => 0x94#8
  | .subL => 0x95#8
  | .subAtHL => 0x96#8
  | .subA => 0x97#8
  | .xorB => 0xA8#8
  | .xorC => 0xA9#8
  | .xorD => 0xAA#8
  | .xorE => 0xAB#8
  | .xorH => 0xAC#8
  | .xorL => 0xAD#8
  | .xorAtHL => 0xAE#8
  | .xorA => 0xAF#8
  | .cpB => 0xB8#8
  | .cpC => 0xB9#8
  | .cpD => 0xBA#8
  | .cpE => 0xBB#8
  | .cpH => 0xBC#8
  | .cpL => 0xBD#8
  | .cpAtHL => 0xBE#8
  | .cpA => 0xBF#8
  | .jpA16 _ => 0xC3#8
  | .addAImm _ => 0xC6#8
  | .ret => 0xC9#8
  | .callA16 _ => 0xCD#8
  | .adcAImm _ => 0xCE#8
  | .subImm _ => 0xD6#8
  | .xorImm _ => 0xEE#8
  | .cpImm _ => 0xFE#8

/-- The operand bytes that follow the opcode, in increasing address order: d8, r8, or a16 low byte first (R33, R51). -/
def Instr.operands : Instr → List Byte
  | .empty _ => []
  | .ldBImm d8 => [d8]
  | .ldCImm d8 => [d8]
  | .ldDImm d8 => [d8]
  | .ldEImm d8 => [d8]
  | .jrNz r8 => [r8]
  | .ldHImm d8 => [d8]
  | .jrZ r8 => [r8]
  | .ldLImm d8 => [d8]
  | .jrNc r8 => [r8]
  | .jrC r8 => [r8]
  | .ldAImm d8 => [d8]
  | .ldBB => []
  | .ldBC => []
  | .ldBD => []
  | .ldBE => []
  | .ldBH => []
  | .ldBL => []
  | .ldBAtHL => []
  | .ldBA => []
  | .ldCB => []
  | .ldCC => []
  | .ldCD => []
  | .ldCE => []
  | .ldCH => []
  | .ldCL => []
  | .ldCAtHL => []
  | .ldCA => []
  | .ldDB => []
  | .ldDC => []
  | .ldDD => []
  | .ldDE => []
  | .ldDH => []
  | .ldDL => []
  | .ldDAtHL => []
  | .ldDA => []
  | .ldEB => []
  | .ldEC => []
  | .ldED => []
  | .ldEE => []
  | .ldEH => []
  | .ldEL => []
  | .ldEAtHL => []
  | .ldEA => []
  | .ldHB => []
  | .ldHC => []
  | .ldHD => []
  | .ldHE => []
  | .ldHH => []
  | .ldHL => []
  | .ldHAtHL => []
  | .ldHA => []
  | .ldLB => []
  | .ldLC => []
  | .ldLD => []
  | .ldLE => []
  | .ldLH => []
  | .ldLL => []
  | .ldLAtHL => []
  | .ldLA => []
  | .ldAtHLB => []
  | .ldAtHLC => []
  | .ldAtHLD => []
  | .ldAtHLE => []
  | .ldAtHLH => []
  | .ldAtHLL => []
  | .halt => []
  | .ldAtHLA => []
  | .ldAB => []
  | .ldAC => []
  | .ldAD => []
  | .ldAE => []
  | .ldAH => []
  | .ldAL => []
  | .ldAAtHL => []
  | .ldAA => []
  | .addAB => []
  | .addAC => []
  | .addAD => []
  | .addAE => []
  | .addAH => []
  | .addAL => []
  | .addAAtHL => []
  | .addAA => []
  | .adcAB => []
  | .adcAC => []
  | .adcAD => []
  | .adcAE => []
  | .adcAH => []
  | .adcAL => []
  | .adcAAtHL => []
  | .adcAA => []
  | .subB => []
  | .subC => []
  | .subD => []
  | .subE => []
  | .subH => []
  | .subL => []
  | .subAtHL => []
  | .subA => []
  | .xorB => []
  | .xorC => []
  | .xorD => []
  | .xorE => []
  | .xorH => []
  | .xorL => []
  | .xorAtHL => []
  | .xorA => []
  | .cpB => []
  | .cpC => []
  | .cpD => []
  | .cpE => []
  | .cpH => []
  | .cpL => []
  | .cpAtHL => []
  | .cpA => []
  | .jpA16 a16 => [lowByte a16, highByte a16]
  | .addAImm d8 => [d8]
  | .ret => []
  | .callA16 a16 => [lowByte a16, highByte a16]
  | .adcAImm d8 => [d8]
  | .subImm d8 => [d8]
  | .xorImm d8 => [d8]
  | .cpImm d8 => [d8]

/-- The bytes of an instruction (R50, R51). -/
def encode (i : Instr) : List Byte := i.opcode :: i.operands

/-- The number of bytes an instruction occupies (R50). -/
def Instr.length (i : Instr) : Nat := 1 + i.operands.length

/-! Names for the members of each instruction form, by their operands: `Instr.ldRR .b .c` is LD B,C. -/

/-- LD r,r' and LD r,r (R85, R86), destination first. -/
def Instr.ldRR : Reg8 → Reg8 → Instr
  | .b, .b => .ldBB
  | .b, .c => .ldBC
  | .b, .d => .ldBD
  | .b, .e => .ldBE
  | .b, .h => .ldBH
  | .b, .l => .ldBL
  | .b, .a => .ldBA
  | .c, .b => .ldCB
  | .c, .c => .ldCC
  | .c, .d => .ldCD
  | .c, .e => .ldCE
  | .c, .h => .ldCH
  | .c, .l => .ldCL
  | .c, .a => .ldCA
  | .d, .b => .ldDB
  | .d, .c => .ldDC
  | .d, .d => .ldDD
  | .d, .e => .ldDE
  | .d, .h => .ldDH
  | .d, .l => .ldDL
  | .d, .a => .ldDA
  | .e, .b => .ldEB
  | .e, .c => .ldEC
  | .e, .d => .ldED
  | .e, .e => .ldEE
  | .e, .h => .ldEH
  | .e, .l => .ldEL
  | .e, .a => .ldEA
  | .h, .b => .ldHB
  | .h, .c => .ldHC
  | .h, .d => .ldHD
  | .h, .e => .ldHE
  | .h, .h => .ldHH
  | .h, .l => .ldHL
  | .h, .a => .ldHA
  | .l, .b => .ldLB
  | .l, .c => .ldLC
  | .l, .d => .ldLD
  | .l, .e => .ldLE
  | .l, .h => .ldLH
  | .l, .l => .ldLL
  | .l, .a => .ldLA
  | .a, .b => .ldAB
  | .a, .c => .ldAC
  | .a, .d => .ldAD
  | .a, .e => .ldAE
  | .a, .h => .ldAH
  | .a, .l => .ldAL
  | .a, .a => .ldAA

/-- LD r,d8 (R87). -/
def Instr.ldRImm : Reg8 → Byte → Instr
  | .b, v => .ldBImm v
  | .c, v => .ldCImm v
  | .d, v => .ldDImm v
  | .e, v => .ldEImm v
  | .h, v => .ldHImm v
  | .l, v => .ldLImm v
  | .a, v => .ldAImm v

/-- LD r,(HL) (R88). -/
def Instr.ldRAtHL : Reg8 → Instr
  | .b => .ldBAtHL
  | .c => .ldCAtHL
  | .d => .ldDAtHL
  | .e => .ldEAtHL
  | .h => .ldHAtHL
  | .l => .ldLAtHL
  | .a => .ldAAtHL

/-- LD (HL),r (R89). -/
def Instr.ldAtHLR : Reg8 → Instr
  | .b => .ldAtHLB
  | .c => .ldAtHLC
  | .d => .ldAtHLD
  | .e => .ldAtHLE
  | .h => .ldAtHLH
  | .l => .ldAtHLL
  | .a => .ldAtHLA

/-- The ALU instructions with a register operand (R105, R108, R111, R114, R117). -/
def Instr.aluR : AluOp → Reg8 → Instr
  | .add, .b => .addAB
  | .add, .c => .addAC
  | .add, .d => .addAD
  | .add, .e => .addAE
  | .add, .h => .addAH
  | .add, .l => .addAL
  | .add, .a => .addAA
  | .adc, .b => .adcAB
  | .adc, .c => .adcAC
  | .adc, .d => .adcAD
  | .adc, .e => .adcAE
  | .adc, .h => .adcAH
  | .adc, .l => .adcAL
  | .adc, .a => .adcAA
  | .sub, .b => .subB
  | .sub, .c => .subC
  | .sub, .d => .subD
  | .sub, .e => .subE
  | .sub, .h => .subH
  | .sub, .l => .subL
  | .sub, .a => .subA
  | .xor, .b => .xorB
  | .xor, .c => .xorC
  | .xor, .d => .xorD
  | .xor, .e => .xorE
  | .xor, .h => .xorH
  | .xor, .l => .xorL
  | .xor, .a => .xorA
  | .cp, .b => .cpB
  | .cp, .c => .cpC
  | .cp, .d => .cpD
  | .cp, .e => .cpE
  | .cp, .h => .cpH
  | .cp, .l => .cpL
  | .cp, .a => .cpA

/-- The ALU instructions with the memory operand at HL (R106, R109, R112, R115, R118). -/
def Instr.aluAtHL : AluOp → Instr
  | .add => .addAAtHL
  | .adc => .adcAAtHL
  | .sub => .subAtHL
  | .xor => .xorAtHL
  | .cp => .cpAtHL

/-- The ALU instructions with an immediate operand (R107, R110, R113, R116, R119). -/
def Instr.aluImm : AluOp → Byte → Instr
  | .add, v => .addAImm v
  | .adc, v => .adcAImm v
  | .sub, v => .subImm v
  | .xor, v => .xorImm v
  | .cp, v => .cpImm v

/-- The conditional relative jumps (R134 to R137). -/
def Instr.jr : Cond → Byte → Instr
  | .nz, v => .jrNz v
  | .z, v => .jrZ v
  | .nc, v => .jrNc v
  | .c, v => .jrC v

/-- Byte `k` of a number, byte 0 the least significant. -/
def byteOfNat (w k : Nat) : Byte := BitVec.ofNat 8 (w / 256 ^ k)

/-- The bytes of an instruction whose bits are `w` as spec/opcode_table.json numbers them, laid out as memory holds
them: byte 0 first, up to the longest instruction (3 bytes, R50), every bit above `nbits` zero. -/
def tableBytes (nbits w : Nat) : List Byte :=
  let v := w % 2 ^ nbits
  [byteOfNat v 0, byteOfNat v 1, byteOfNat v 2]

/-- The instruction the decoder reads from a word of spec/opcode_table.json. -/
def decodeTableWord (nbits w : Nat) : Option Instr :=
  match decode (tableBytes nbits w) with
  | .ok (i, _) => some i
  | .error _ => none

end Sys2Proof
end

