-- ==== Sys2Proof/Config.lean ====
section
/-! DEFINITION. What an implementation fixes and the spec leaves open (R5): the names of the cycle-cost table (R177)
and the free choice behind its numbers, the parts a bus is made of (R43) and what its devices answer, and the shape of the
reset parameters (R23). -/

namespace Sys2Proof

/-- The fourteen entries of the CYCLES table (R177). -/
inductive CycleEntry where
  | haltedStep | ldRR | ldRD8 | ldRHL | ldHLR | aluR | aluD8 | aluHL | jp | call | ret | jrTaken | jrNotTaken | halt
deriving DecidableEq, Repr

/-- The free values behind the CYCLES table: the spec orders the costs and prints no number (R177, D8), so nothing
is known of them. `Machine.cycleTable` turns them into a table that meets the spec's order constraints. DESIGN CHOICE, safe
(assumption log 4). -/
opaque Config.costChoice : CycleEntry → Nat

/-- One bus access (R31, R32): one byte read from, or written to, a 16-bit address. -/
inductive BusAccess where
  | read (addr : Word) (value : Byte)
  | write (addr : Word) (value : Byte)
deriving DecidableEq, Repr

/-- What the bus owner may put at an address (R40, R43): memory that keeps what is written, memory that ignores writes, or a
device, by its number. -/
inductive BusPart where
  | ram
  | rom
  | device (unit : Nat)
deriving DecidableEq, Repr

/-- A range of addresses and the part that answers in it. -/
structure BusWindow where
  base : Word
  size : Nat
  part : BusPart
deriving DecidableEq, Repr

/-- The free values a device answers a read with: the byte, from the unit, all accesses that devices have seen so far, oldest
first, and the address. The spec says only that a read returns some byte (R31, R43, U10), so nothing is known of them. A device
may keep any state, since its state is a function of the accesses it has seen. DESIGN CHOICE, safe (assumption log 3). -/
opaque Config.deviceByte : Nat → List BusAccess → Word → Byte

/-- The ten reset parameters RESET_* (R5, R23, D10). -/
structure ResetParams where
  a : Byte
  f : Byte
  b : Byte
  c : Byte
  d : Byte
  e : Byte
  h : Byte
  l : Byte
  sp : Word
  pc : Word
deriving DecidableEq, Repr

/-- What R23 requires of the parameters: `RESET_F[3:0] = 0`. -/
abbrev ResetParams.Ok (p : ResetParams) : Prop := p.f.extractLsb' 0 4 = 0#4

end Sys2Proof
end

