-- ==== Sys2Proof/Machine/Memory.lean ====
section
/-! DEFINITION. The bytes of a flat 64 KiB memory (R30, R43), as a list of (address, byte) cells in one canonical form. -/

namespace Sys2Proof.Machine

/-- The cells whose byte differs from what an unlisted address reads as, by rising address. -/
abbrev Memory := List Host.Cell

/-- What an address that no cell lists reads as. The spec gives memory no initial contents (R24, R43, U9). DESIGN CHOICE,
unsafe (assumption log 2). -/
def unwrittenByte : Byte := 0x00#8

/-- The canonical form: every address below 65536 (R30, R42), addresses strictly rising, no cell equal to
what an unlisted address reads as. -/
def Memory.wf : Memory → Bool
  | [] => true
  | (k, v) :: m => decide (k < 65536) && decide (v ≠ unwrittenByte) && m.all (fun c => decide (k < c.1)) && Memory.wf m

/-- The byte at an address. -/
def Memory.readAt : Memory → Nat → Byte
  | [], _ => unwrittenByte
  | (k, v) :: m, a => if a = k then v else Memory.readAt m a

/-- The memory with the byte at an address replaced, in canonical form again. -/
def Memory.writeAt : Memory → Nat → Byte → Memory
  | [], a, v => if v = unwrittenByte then [] else [(a, v)]
  | (k, w) :: m, a, v =>
    if a < k then (if v = unwrittenByte then (k, w) :: m else (a, v) :: (k, w) :: m)
    else if a = k then (if v = unwrittenByte then m else (a, v) :: m)
    else (k, w) :: Memory.writeAt m a v

/-- `mem[a]` (R43). -/
def Memory.read (m : Memory) (a : Word) : Byte := m.readAt a.toNat

/-- `mem` with `mem[a]` replaced by `v` (R43). -/
def Memory.write (m : Memory) (a : Word) (v : Byte) : Memory := m.writeAt a.toNat v

end Sys2Proof.Machine
end

