-- ==== Sys2Proof/Machine/Bus.lean ====
section
/-! DEFINITION. BUS, the parameter of the step (R5, R31, R43): what answers at each address, the bytes of the memory parts, and
what the devices have seen. Plain data, so that a state holds its bus. -/

namespace Sys2Proof.Machine

/-- A bus (R43, D17; assumption log 3). -/
structure Bus where
  /-- What answers where; the first window that holds an address decides, and where none does there is RAM. No window at all
  is the reference bus, a flat 64 KiB RAM. -/
  map : List BusWindow
  /-- The bytes of RAM and ROM. -/
  mem : Memory
  /-- The accesses that devices have seen, oldest first: all that a device's state depends on. -/
  deviceLog : List BusAccess
deriving DecidableEq, Repr

/-- The reference bus of R43 with the given contents. -/
def Bus.flat (m : Memory) : Bus := { map := [], mem := m, deviceLog := [] }

/-- Does a window hold an address? -/
def holdsAddress (w : BusWindow) (a : Word) : Bool :=
  decide (w.base.toNat ≤ a.toNat) && decide (a.toNat < w.base.toNat + w.size)

/-- The part at an address, by the windows from the first. -/
def partIn : List BusWindow → Word → BusPart
  | [], _ => .ram
  | w :: rest, a => if holdsAddress w a then w.part else partIn rest a

/-- What answers at an address. -/
def Bus.part (b : Bus) (a : Word) : BusPart := partIn b.map a

/-- Does a device answer at an address? -/
def Bus.isDevice (b : Bus) (a : Word) : Bool :=
  match b.part a with
  | .ram => false
  | .rom => false
  | .device _ => true

/-- The byte a read of an address would return. -/
def Bus.peek (b : Bus) (a : Word) : Byte :=
  match b.part a with
  | .ram => b.mem.read a
  | .rom => b.mem.read a
  | .device unit => Config.deviceByte unit b.deviceLog a

/-- The bus after an access that, at a device, the device sees. -/
def Bus.note (b : Bus) (a : Word) (x : BusAccess) : Bus :=
  if b.isDevice a then { b with deviceLog := b.deviceLog ++ [x] } else b

/-- `bus.read(addr)` (R31): total; a read has a side effect at a device only (R43). -/
def Bus.read (b : Bus) (a : Word) : Byte × Bus := (b.peek a, b.note a (.read a (b.peek a)))

/-- `bus.write(addr, v)` (R31): total; RAM takes the byte, ROM ignores the write, a device sees it (R43). -/
def Bus.write (b : Bus) (a : Word) (v : Byte) : Bus :=
  match b.part a with
  | .ram => { b with mem := b.mem.write a v }
  | .rom => b
  | .device _ => b.note a (.write a v)

/-- The bus after a list of accesses, in order. -/
def Bus.after (b : Bus) : List BusAccess → Bus
  | [] => b
  | .read a _ :: rest => (b.read a).2.after rest
  | .write a v :: rest => (b.write a v).after rest

/-- The bus answers the reads of a list of accesses, made in order, with the bytes the list gives them. -/
def Bus.answers (b : Bus) : List BusAccess → Prop
  | [] => True
  | .read a v :: rest => b.peek a = v ∧ (b.read a).2.answers rest
  | .write a v :: rest => (b.write a v).answers rest

/-- The reads of the `k` bytes from an address on, one after the other, and what they return. -/
def Bus.readsFrom (b : Bus) (a : Word) : Nat → List BusAccess
  | 0 => []
  | k + 1 => .read a (b.peek a) :: (b.read a).2.readsFrom (a + 1#16) k

/-- The bytes those reads return. -/
def Bus.bytesFrom (b : Bus) (a : Word) : Nat → List Byte
  | 0 => []
  | k + 1 => b.peek a :: (b.read a).2.bytesFrom (a + 1#16) k

end Sys2Proof.Machine
end

