-- ==== Sys2Proof/Machine/Reset.lean ====
section
/-! DEFINITION. The values taken for the reset parameters. -/

namespace Sys2Proof.Machine

/-- The defaults R23 suggests for the ten RESET_* parameters, which the spec leaves open (D10): the register values of the
original Game Boy (DMG) after its boot ROM. PRESUMED, unsafe (assumption log 1). -/
def resetValues : ResetParams :=
  { a := 0x01#8, f := 0xB0#8, b := 0x00#8, c := 0x13#8, d := 0x00#8, e := 0xD8#8, h := 0x01#8, l := 0x4D#8,
    sp := 0xFFFE#16, pc := 0x0100#16 }

end Sys2Proof.Machine
end

