-- ==== Sys2Proof/Machine/State.lean ====
section
/-! DEFINITION. The state of the machine (R25) with the bus it steps on (R70), the reasons a step can stop, and
initialisation (R170). -/

namespace Sys2Proof.Machine

/-- The architectural state of R25, the bus (R43), and two fields of the model's own. Every field
is plain data. -/
structure State where
  /-- A, the accumulator (R10). -/
  a : Byte
  /-- F, the flag register: Z N H C in bits 7 6 5 4 (R13). -/
  f : Byte
  b : Byte
  c : Byte
  d : Byte
  e : Byte
  h : Byte
  l : Byte
  /-- The stack pointer (R17). -/
  sp : Word
  /-- The program counter (R18). -/
  pc : Word
  /-- True once HALT has executed (R19). -/
  halted : Bool
  /-- The interrupt master enable: false after init, touched by nothing (R20). -/
  ime : Bool
  /-- The cycle counter, an unbounded natural number (R21). -/
  cycleCount : Nat
  /-- BUS (R5, R43). Not CPU state: `step(state, bus)` takes it as its second argument (R70), which stands here because the
  host's step has one argument (assumption log 3). -/
  bus : Bus
  /-- The MODEL's own: the bus accesses of the most recent step, in order, which R4 makes a result of `step`.
  DESIGN CHOICE, safe (assumption log 5). -/
  busLog : List BusAccess
  /-- The MODEL's own: `init` has run (R82). DESIGN CHOICE, safe (assumption log 6). -/
  initialised : Bool
deriving DecidableEq, Repr

/-- Why the machine stops with a fault. -/
inductive Fault where
  /-- UnimplementedOpcode(opcode, address) (R150, R151): the one exception of the core, raised on an EMPTY opcode byte,
  with that byte and the address it was fetched from. The spec's own end of a run (R153): safe. -/
  | unimplementedOpcode (opcode : Byte) (address : Word)
deriving DecidableEq, Repr

/-- Why a step gives no meaning. -/
inductive Refusal where
  /-- `exec` on an instruction that has no meaning in this model: raised by no arm. Safe. -/
  | notModelled (mnemonic : String)
  /-- `step` before `init` (R82, D19, U4): raised by `step` alone. Safe (assumption log 6). -/
  | notInitialised
deriving DecidableEq, Repr

/-- The outcome of an instruction or of a step. -/
abbrev Result := Host.Outcome State Fault Refusal

/-- `init` (R170): the registers at their parameters, `halted`, `ime` and `cycle_count` cleared. It makes no bus access and
leaves the bus as its owner has it (R170, R175). -/
def State.init (p : ResetParams) (b : Bus) : State :=
  { a := p.a, f := p.f, b := p.b, c := p.c, d := p.d, e := p.e, h := p.h, l := p.l, sp := p.sp, pc := p.pc,
    halted := false, ime := false, cycleCount := 0, bus := b, busLog := [], initialised := true }

/-- The machine right after reset: `init` with the suggested parameters (assumption log 1), on the
reference bus (assumption log 3) with nothing in memory (assumption log 2). -/
def State.reset : State := State.init resetValues (Bus.flat [])

end Sys2Proof.Machine
end

