-- ==== Sys2Proof/Machine/Ops.lean ====
section
/-! DEFINITION. The operations the instructions share: register and pair access, pointer arithmetic, the bus, operand fetch,
the stack, cycle accounting, the fetch of a whole instruction, the halted tick, the one exception, the state dump and the
bus owner's load. -/

namespace Sys2Proof.Machine

/-! ### Pointer arithmetic (R8, R83) -/

/-- `inc16(w, k) = (w + k) mod 65536`. -/
def inc16 (w : Word) (k : Nat) : Word := w + BitVec.ofNat 16 k

/-- `dec16(w, k) = (w - k) mod 65536`. -/
def dec16 (w : Word) (k : Nat) : Word := w - BitVec.ofNat 16 k

/-- `sext_16(b)`: the byte as two's complement, widened to a word. -/
def sext16 (b : Byte) : Word := b.signExtend 16

/-! ### Registers (R10, R11, R12) -/

/-- `r[i]`, the register an operand names. -/
def State.reg (s : State) : Reg8 → Byte
  | .b => s.b
  | .c => s.c
  | .d => s.d
  | .e => s.e
  | .h => s.h
  | .l => s.l
  | .a => s.a

/-- `r[i] <- v`. -/
def State.setReg (s : State) (r : Reg8) (v : Byte) : State :=
  match r with
  | .b => { s with b := v }
  | .c => { s with c := v }
  | .d => { s with d := v }
  | .e => { s with e := v }
  | .h => { s with h := v }
  | .l => { s with l := v }
  | .a => { s with a := v }

/-- A register pair, a view of two registers (R11). -/
def State.pair (s : State) : Pair16 → Word
  | .af => wordOf s.a s.f
  | .bc => wordOf s.b s.c
  | .de => wordOf s.d s.e
  | .hl => wordOf s.h s.l

/-- The write of a pair: both registers, always; the low nibble of F is forced to zero (R11, D25, assumption log 20). -/
def State.setPair (s : State) (p : Pair16) (v : Word) : State :=
  match p with
  | .af => { s with a := highByte v, f := lowByte v &&& 0xF0#8 }
  | .bc => { s with b := highByte v, c := lowByte v }
  | .de => { s with d := highByte v, e := lowByte v }
  | .hl => { s with h := highByte v, l := lowByte v }

/-- `pc <- w`. -/
def State.setPc (s : State) (w : Word) : State := { s with pc := w }

/-- `sp <- w`. -/
def State.setSp (s : State) (w : Word) : State := { s with sp := w }

/-! ### The bus (R31, R32) -/

/-- `MemRead(addr, 1)`: the byte, and the state with the access recorded. -/
def State.busRead (s : State) (a : Word) : Byte × State :=
  ((s.bus.read a).1, { s with bus := (s.bus.read a).2, busLog := s.busLog ++ [.read a (s.bus.read a).1] })

/-- `MemWrite(addr, 1, v)`. -/
def State.busWrite (s : State) (a : Word) (v : Byte) : State :=
  { s with bus := s.bus.write a v, busLog := s.busLog ++ [.write a v] }

/-! ### Operand fetch (R75, R76) -/

/-- `fetch8()`: the byte at pc, pc advanced by one. -/
def State.fetch8 (s : State) : Byte × State :=
  ((s.busRead s.pc).1, (s.busRead s.pc).2.setPc (inc16 s.pc 1))

/-- `fetch16()`: low byte first, pc advanced by two. -/
def State.fetch16 (s : State) : Word × State :=
  (wordOf s.fetch8.2.fetch8.1 s.fetch8.1, s.fetch8.2.fetch8.2)

/-! ### The stack (R80, R81) -/

/-- `push16(w)`: sp down by two, the low byte at the new sp, the high byte above it. The order of the two writes is D16
(assumption log 16), the wrap of `sp + 1` is D15 (assumption log 15). -/
def State.push16 (s : State) (w : Word) : State :=
  ((s.setSp (dec16 s.sp 2)).busWrite (dec16 s.sp 2) (lowByte w)).busWrite (inc16 (dec16 s.sp 2) 1) (highByte w)

/-- `pop16()`: the low byte at sp, the high byte above it, sp up by two. -/
def State.pop16 (s : State) : Word × State :=
  let lo := s.busRead s.sp
  let hi := lo.2.busRead (inc16 s.sp 1)
  (wordOf hi.1 lo.1, hi.2.setSp (inc16 s.sp 2))

/-! ### Cycle accounting (R77, R177) -/

/-- A CYCLES table from a free choice: `haltedStep` positive and no greater than any other entry, the order relations of R177
kept, every number else left to the choice. -/
def cycleTable (choice : CycleEntry → Nat) : CycleEntry → Nat
  | .haltedStep => choice .haltedStep + 1
  | .ldRR => choice .haltedStep + 1 + choice .ldRR
  | .ldRD8 => choice .haltedStep + 1 + choice .ldRR + 1 + choice .ldRD8
  | .ldRHL => choice .haltedStep + 1 + choice .ldRR + 1 + choice .ldRHL
  | .ldHLR => choice .haltedStep + 1 + choice .ldRR + 1 + choice .ldHLR
  | .aluR => choice .haltedStep + 1 + choice .aluR
  | .aluD8 => choice .haltedStep + 1 + choice .aluR + 1 + choice .aluD8
  | .aluHL => choice .haltedStep + 1 + choice .aluR + 1 + choice .aluHL
  | .jp => choice .haltedStep + 1 + choice .jp
  | .call => choice .haltedStep + 1 + choice .call
  | .ret => choice .haltedStep + 1 + choice .ret
  | .jrNotTaken => choice .haltedStep + 1 + choice .jrNotTaken
  | .jrTaken => choice .haltedStep + 1 + choice .jrNotTaken + 1 + choice .jrTaken
  | .halt => choice .haltedStep + 1 + choice .halt

/-- The CYCLES table of the machine: free under the constraints of R177. DESIGN CHOICE, safe (assumption log 4). -/
def cycleCost (e : CycleEntry) : Nat := cycleTable Config.costChoice e

/-- `tick(CYCLES.e)`. -/
def State.tick (s : State) (e : CycleEntry) : State := { s with cycleCount := s.cycleCount + cycleCost e }

/-! ### The frame of a step (R71, R72, R73) -/

/-- The state as a step begins: the record of bus accesses is the new step's, so far empty. -/
def State.beginStep (s : State) : State := { s with busLog := [] }

/-- The step of a halted core (R71): the cost, no bus access, nothing else. -/
def State.haltedTick (s : State) : State := s.beginStep.tick .haltedStep

/-- The fetch of one whole instruction: the opcode byte (R72), its slot (R73), then its operand bytes, all of them
before the handler does anything (R75). pc ends at the post-fetch pc of R18. -/
def State.fetchInstr (s : State) : Instr × State :=
  match decodeOpcode s.fetch8.1 with
  | .empty => (.empty s.fetch8.1, s.fetch8.2)
  | .op i => (i, s.fetch8.2)
  | .opD8 build => (build s.fetch8.2.fetch8.1, s.fetch8.2.fetch8.2)
  | .opR8 build => (build s.fetch8.2.fetch8.1, s.fetch8.2.fetch8.2)
  | .opA16 build => (build s.fetch8.2.fetch16.1, s.fetch8.2.fetch16.2)

/-! ### The one exception (R150 to R153, R157) -/

/-- `raise UnimplementedOpcode(opcode, address)`, after the opcode fetch: the address is where the byte lived, one less than
the advanced pc (R74, R151). The run ends; nothing is saved and control goes nowhere (R157), and there is no return from
it (R158). -/
def raiseUnimplementedOpcode (opcode : Byte) (s : State) : Result :=
  .fault (.unimplementedOpcode opcode (dec16 s.pc 1))

/-- The state a faulting step leaves, which the driver may dump (R152): one bus read, pc advanced past the EMPTY byte,
nothing else changed, no cost (D13, assumption log 14). -/
def State.atFault (s : State) : State := s.beginStep.fetch8.2

/-! ### Debug and the bus owner -/

/-- The six words of the state dump (R163, D20). -/
structure Dump where
  pc : Word
  sp : Word
  af : Word
  bc : Word
  de : Word
  hl : Word
deriving DecidableEq, Repr

/-- The state dump: it reads the state and changes nothing (R163). -/
def State.dump (s : State) : Dump :=
  { pc := s.pc, sp := s.sp, af := s.pair .af, bc := s.pair .bc, de := s.pair .de, hl := s.pair .hl }

/-- The bus owner puts bytes into memory, ROM too, at increasing addresses, between steps (R44, R174); no access of the
core's. -/
def State.loadImage (s : State) (base : Word) : List Byte → State
  | [] => s
  | v :: rest => State.loadImage { s with bus := { s.bus with mem := s.bus.mem.write base v } } (inc16 base 1) rest

/-- The bus owner sees to it that memory answers at the `k` addresses from `base` on: where a device does, a window of one byte
of RAM goes before it. -/
def State.coverWithMemory (s : State) (base : Word) : Nat → State
  | 0 => s
  | k + 1 =>
    State.coverWithMemory
      (if s.bus.isDevice base then { s with bus := { s.bus with map := ⟨base, 1, .ram⟩ :: s.bus.map } } else s)
      (inc16 base 1) k

end Sys2Proof.Machine
end

