-- ==== Sys2Proof/Machine/Flags.lean ====
section
/-! DEFINITION. The flags (R13, R15), the condition evaluator (R130) and the ALU primitives with their flag computations
(R100, R101, R102). -/

namespace Sys2Proof.Machine

/-- A flag bit in its place: bit `k` of a byte. -/
def flagBit (v : Bool) (k : Nat) : Byte := if v then 1#8 <<< k else 0#8

/-- `(z << 7) | (n << 6) | (h << 5) | (c << 4)` (R15); the low nibble is zero (R14). -/
def flagsByte (z n h c : Bool) : Byte := flagBit z 7 ||| flagBit n 6 ||| flagBit h 5 ||| flagBit c 4

/-- `set_flags(z, n, h, c)`: all of F is written (R15). -/
def State.setFlags (s : State) (z n h c : Bool) : State := { s with f := flagsByte z n h c }

/-- The test of a named flag (R15). -/
def State.flag (s : State) (k : Flag) : Bool := s.f.getLsbD k.bit

/-- The register model's write of one named flag (R15); no instruction uses it (C5, assumption log 24). -/
def State.setFlag (s : State) (k : Flag) : State := { s with f := s.f ||| flagBit true k.bit }

/-- The register model's clear of one named flag (R15); no instruction uses it (C5, assumption log 24). -/
def State.clearFlag (s : State) (k : Flag) : State := { s with f := s.f &&& ~~~ flagBit true k.bit }

/-- `cond(cc)` (R130): reads F and changes nothing. NC and C are the spec's choice (D7, assumption log 12). -/
def State.cond (s : State) : Cond → Bool
  | .nz => !s.flag .z
  | .z => s.flag .z
  | .nc => !s.flag .c
  | .c => s.flag .c

/-- What an ALU primitive returns: the 8-bit result and the four flags. -/
structure AluResult where
  res : Byte
  z : Bool
  n : Bool
  h : Bool
  c : Bool
deriving DecidableEq, Repr

/-- `a & 0xF`, as a number. -/
def lowNibble (v : Byte) : Nat := (v &&& 0x0F#8).toNat

/-- `alu_add(a, b, cin)` (R100): a widened sum, half-carry out of bit 3, carry out of bit 7, N clear. -/
def aluAdd (a b : Byte) (cin : Bool) : AluResult :=
  let t := a.toNat + b.toNat + cin.toNat
  let res := BitVec.ofNat 8 t
  { res := res, z := decide (res = 0#8), n := false,
    h := decide (lowNibble a + lowNibble b + cin.toNat > 0xF), c := decide (t > 255) }

/-- `alu_sub(a, b)` (R101): the difference modulo 256, N set, H and C the borrows. The derivation of H and C is the
spec's choice (D5, assumption log 10). -/
def aluSub (a b : Byte) : AluResult :=
  let res := BitVec.ofInt 8 ((a.toNat : Int) - (b.toNat : Int))
  { res := res, z := decide (res = 0#8), n := true, h := decide (lowNibble a < lowNibble b),
    c := decide (a.toNat < b.toNat) }

/-- `alu_xor(a, b)` (R102): N, H and C clear. For operands other than A with itself this is the spec's choice (D6,
assumption log 11). -/
def aluXor (a b : Byte) : AluResult :=
  let res := a ^^^ b
  { res := res, z := decide (res = 0#8), n := false, h := false, c := false }

/-- The primitive of each operation; ADC folds in the carry flag as it was (R103, R108), CP computes what SUB does (R117). -/
def aluCompute (op : AluOp) (a b : Byte) (carry : Bool) : AluResult :=
  match op with
  | .add => aluAdd a b false
  | .adc => aluAdd a b carry
  | .sub => aluSub a b
  | .xor => aluXor a b
  | .cp => aluSub a b

/-- Does the operation write its result to A? All but CP (R103). -/
def writesA : AluOp → Bool
  | .add => true
  | .adc => true
  | .sub => true
  | .xor => true
  | .cp => false

/-- The write-back of an ALU instruction (R103): A (never for CP), all four flags, one tick. A, the operand and the carry
flag are the values before any of the writes. -/
def State.aluWriteBack (s : State) (op : AluOp) (operand : Byte) (cost : CycleEntry) : State :=
  let r := aluCompute op s.a operand (s.flag .c)
  ((if writesA op then s.setReg .a r.res else s).setFlags r.z r.n r.h r.c).tick cost

end Sys2Proof.Machine
end

