-- ==== Sys2Proof/Machine/Operands.lean ====
section
/-! DEFINITION. The operand forms: register, immediate, and the memory byte at HL (R53, R90, R103). The immediates
reach a meaning assembled (R53), in the instruction's own fields. -/

namespace Sys2Proof.Machine

/-- `(H << 8) | L`: the address of every (HL) operand, from H and L as they are now (R39, R53). -/
def State.hlAddress (s : State) : Word := s.pair .hl

/-- The read of the (HL) operand: one bus read (R53, R88, R103). -/
def State.readAtHL (s : State) : Byte × State := s.busRead s.hlAddress

/-- The write of the (HL) operand: one bus write (R53, R89). -/
def State.writeAtHL (s : State) (v : Byte) : State := s.busWrite s.hlAddress v

/-- The target of a taken relative jump: the post-fetch pc plus the signed offset, modulo 65536 (R53, R144). -/
def relativeTarget (postFetchPc : Word) (r8 : Byte) : Word := postFetchPc + sext16 r8

end Sys2Proof.Machine
end

