-- ==== Sys2Proof/Machine/Alu.lean ====
section
/-! DEFINITION. The arithmetic family (R100 to R119): one meaning per instruction, over the three operand forms of R103. -/

namespace Sys2Proof.Machine

/-- The register form: no bus access (R103). -/
def aluWithReg (op : AluOp) (r : Reg8) (s : State) : Result := .next (s.aluWriteBack op (s.reg r) .aluR)

/-- The (HL) form: exactly one bus read (R103). -/
def aluWithAtHL (op : AluOp) (s : State) : Result := .next (s.readAtHL.2.aluWriteBack op s.readAtHL.1 .aluHL)

/-- The d8 form (R103). -/
def aluWithImm (op : AluOp) (v : Byte) (s : State) : Result := .next (s.aluWriteBack op v .aluD8)

/-- ADD A,B (R105). -/
def execAddAB (s : State) : Result := aluWithReg .add .b s

/-- ADD A,C (R105). -/
def execAddAC (s : State) : Result := aluWithReg .add .c s

/-- ADD A,D (R105). -/
def execAddAD (s : State) : Result := aluWithReg .add .d s

/-- ADD A,E (R105). -/
def execAddAE (s : State) : Result := aluWithReg .add .e s

/-- ADD A,H (R105). -/
def execAddAH (s : State) : Result := aluWithReg .add .h s

/-- ADD A,L (R105). -/
def execAddAL (s : State) : Result := aluWithReg .add .l s

/-- ADD A,A (R105). -/
def execAddAA (s : State) : Result := aluWithReg .add .a s

/-- ADD A,(HL) (R106). -/
def execAddAAtHL (s : State) : Result := aluWithAtHL .add s

/-- ADD A,d8 (R107). -/
def execAddAImm (d8 : Byte) (s : State) : Result := aluWithImm .add d8 s

/-- ADC A,B (R108). -/
def execAdcAB (s : State) : Result := aluWithReg .adc .b s

/-- ADC A,C (R108). -/
def execAdcAC (s : State) : Result := aluWithReg .adc .c s

/-- ADC A,D (R108). -/
def execAdcAD (s : State) : Result := aluWithReg .adc .d s

/-- ADC A,E (R108). -/
def execAdcAE (s : State) : Result := aluWithReg .adc .e s

/-- ADC A,H (R108). -/
def execAdcAH (s : State) : Result := aluWithReg .adc .h s

/-- ADC A,L (R108). -/
def execAdcAL (s : State) : Result := aluWithReg .adc .l s

/-- ADC A,A (R108). -/
def execAdcAA (s : State) : Result := aluWithReg .adc .a s

/-- ADC A,(HL) (R109). -/
def execAdcAAtHL (s : State) : Result := aluWithAtHL .adc s

/-- ADC A,d8 (R110). -/
def execAdcAImm (d8 : Byte) (s : State) : Result := aluWithImm .adc d8 s

/-- SUB B (R111). -/
def execSubB (s : State) : Result := aluWithReg .sub .b s

/-- SUB C (R111). -/
def execSubC (s : State) : Result := aluWithReg .sub .c s

/-- SUB D (R111). -/
def execSubD (s : State) : Result := aluWithReg .sub .d s

/-- SUB E (R111). -/
def execSubE (s : State) : Result := aluWithReg .sub .e s

/-- SUB H (R111). -/
def execSubH (s : State) : Result := aluWithReg .sub .h s

/-- SUB L (R111). -/
def execSubL (s : State) : Result := aluWithReg .sub .l s

/-- SUB A (R111). -/
def execSubA (s : State) : Result := aluWithReg .sub .a s

/-- SUB (HL) (R112). -/
def execSubAtHL (s : State) : Result := aluWithAtHL .sub s

/-- SUB d8 (R113). -/
def execSubImm (d8 : Byte) (s : State) : Result := aluWithImm .sub d8 s

/-- XOR B (R114). -/
def execXorB (s : State) : Result := aluWithReg .xor .b s

/-- XOR C (R114). -/
def execXorC (s : State) : Result := aluWithReg .xor .c s

/-- XOR D (R114). -/
def execXorD (s : State) : Result := aluWithReg .xor .d s

/-- XOR E (R114). -/
def execXorE (s : State) : Result := aluWithReg .xor .e s

/-- XOR H (R114). -/
def execXorH (s : State) : Result := aluWithReg .xor .h s

/-- XOR L (R114). -/
def execXorL (s : State) : Result := aluWithReg .xor .l s

/-- XOR A (R114). -/
def execXorA (s : State) : Result := aluWithReg .xor .a s

/-- XOR (HL) (R115). -/
def execXorAtHL (s : State) : Result := aluWithAtHL .xor s

/-- XOR d8 (R116). -/
def execXorImm (d8 : Byte) (s : State) : Result := aluWithImm .xor d8 s

/-- CP B (R117). -/
def execCpB (s : State) : Result := aluWithReg .cp .b s

/-- CP C (R117). -/
def execCpC (s : State) : Result := aluWithReg .cp .c s

/-- CP D (R117). -/
def execCpD (s : State) : Result := aluWithReg .cp .d s

/-- CP E (R117). -/
def execCpE (s : State) : Result := aluWithReg .cp .e s

/-- CP H (R117). -/
def execCpH (s : State) : Result := aluWithReg .cp .h s

/-- CP L (R117). -/
def execCpL (s : State) : Result := aluWithReg .cp .l s

/-- CP A (R117). -/
def execCpA (s : State) : Result := aluWithReg .cp .a s

/-- CP (HL) (R118). -/
def execCpAtHL (s : State) : Result := aluWithAtHL .cp s

/-- CP d8 (R119). -/
def execCpImm (d8 : Byte) (s : State) : Result := aluWithImm .cp d8 s

end Sys2Proof.Machine
end

