-- ==== Sys2Proof/Machine/Control.lean ====
section
/-! DEFINITION. The control-transfer family and HALT (R131 to R144), and the EMPTY slot (R55). No meaning here writes F
(R16, D27, assumption log 23). -/

namespace Sys2Proof.Machine

/-- JP a16: `pc <- target` (R131). -/
def execJpA16 (a16 : Word) (s : State) : Result := .next ((s.setPc a16).tick .jp)

/-- CALL a16: push the post-fetch pc, then jump (R132). -/
def execCallA16 (a16 : Word) (s : State) : Result := .next (((s.push16 s.pc).setPc a16).tick .call)

/-- RET: pop into pc (R133). -/
def execRet (s : State) : Result := .next ((s.pop16.2.setPc s.pop16.1).tick .ret)

/-- `jr_cc(cc)`, the handler the four conditional jumps share (R144): two costs, chosen by the condition. -/
def jumpRelative (cc : Cond) (r8 : Byte) (s : State) : Result :=
  if s.cond cc then .next ((s.setPc (relativeTarget s.pc r8)).tick .jrTaken) else .next (s.tick .jrNotTaken)

/-- JR NZ,r8 (R134). -/
def execJrNz (r8 : Byte) (s : State) : Result := jumpRelative .nz r8 s

/-- JR Z,r8 (R135). -/
def execJrZ (r8 : Byte) (s : State) : Result := jumpRelative .z r8 s

/-- JR NC,r8 (R136). -/
def execJrNc (r8 : Byte) (s : State) : Result := jumpRelative .nc r8 s

/-- JR C,r8 (R137). -/
def execJrC (r8 : Byte) (s : State) : Result := jumpRelative .c r8 s

/-- HALT: `halted <- 1`, and the cost (R138, D12, assumption log 13). Every later step is the halted tick (R139). -/
def execHalt (s : State) : Result := .next ({ s with halted := true }.tick .halt)

/-- An EMPTY slot: the step raises UnimplementedOpcode (R55, R74, R150). -/
def execEmpty (opcode : Byte) (s : State) : Result := raiseUnimplementedOpcode opcode s

end Sys2Proof.Machine
end

