-- ==== Sys2Proof/Machine/Load.lean ====
section
/-! DEFINITION. The load/move family (R85 to R90): one meaning per instruction, over four shared operations. A meaning runs
after the whole instruction is fetched, so pc already is the post-fetch pc (R18). -/

namespace Sys2Proof.Machine

/-- LD r,r' and LD r,r: `r[d] <- r[s]`; the cost of a self-copy is the same (R85, R86). -/
def loadRegReg (dst src : Reg8) (s : State) : Result := .next ((s.setReg dst (s.reg src)).tick .ldRR)

/-- LD r,d8: `r[d] <- d8` (R87). -/
def loadRegImm (dst : Reg8) (v : Byte) (s : State) : Result := .next ((s.setReg dst v).tick .ldRD8)

/-- LD r,(HL): the address is formed from H and L before the write (R88). -/
def loadRegAtHL (dst : Reg8) (s : State) : Result :=
  .next ((s.readAtHL.2.setReg dst s.readAtHL.1).tick .ldRHL)

/-- LD (HL),r: one write (R89). -/
def storeAtHLReg (src : Reg8) (s : State) : Result := .next ((s.writeAtHL (s.reg src)).tick .ldHLR)

/-- LD B,d8 (R87). -/
def execLdBImm (d8 : Byte) (s : State) : Result := loadRegImm .b d8 s

/-- LD C,d8 (R87). -/
def execLdCImm (d8 : Byte) (s : State) : Result := loadRegImm .c d8 s

/-- LD D,d8 (R87). -/
def execLdDImm (d8 : Byte) (s : State) : Result := loadRegImm .d d8 s

/-- LD E,d8 (R87). -/
def execLdEImm (d8 : Byte) (s : State) : Result := loadRegImm .e d8 s

/-- LD H,d8 (R87). -/
def execLdHImm (d8 : Byte) (s : State) : Result := loadRegImm .h d8 s

/-- LD L,d8 (R87). -/
def execLdLImm (d8 : Byte) (s : State) : Result := loadRegImm .l d8 s

/-- LD A,d8 (R87). -/
def execLdAImm (d8 : Byte) (s : State) : Result := loadRegImm .a d8 s

/-- LD B,B (R86). -/
def execLdBB (s : State) : Result := loadRegReg .b .b s

/-- LD B,C (R85). -/
def execLdBC (s : State) : Result := loadRegReg .b .c s

/-- LD B,D (R85). -/
def execLdBD (s : State) : Result := loadRegReg .b .d s

/-- LD B,E (R85). -/
def execLdBE (s : State) : Result := loadRegReg .b .e s

/-- LD B,H (R85). -/
def execLdBH (s : State) : Result := loadRegReg .b .h s

/-- LD B,L (R85). -/
def execLdBL (s : State) : Result := loadRegReg .b .l s

/-- LD B,(HL) (R88). -/
def execLdBAtHL (s : State) : Result := loadRegAtHL .b s

/-- LD B,A (R85). -/
def execLdBA (s : State) : Result := loadRegReg .b .a s

/-- LD C,B (R85). -/
def execLdCB (s : State) : Result := loadRegReg .c .b s

/-- LD C,C (R86). -/
def execLdCC (s : State) : Result := loadRegReg .c .c s

/-- LD C,D (R85). -/
def execLdCD (s : State) : Result := loadRegReg .c .d s

/-- LD C,E (R85). -/
def execLdCE (s : State) : Result := loadRegReg .c .e s

/-- LD C,H (R85). -/
def execLdCH (s : State) : Result := loadRegReg .c .h s

/-- LD C,L (R85). -/
def execLdCL (s : State) : Result := loadRegReg .c .l s

/-- LD C,(HL) (R88). -/
def execLdCAtHL (s : State) : Result := loadRegAtHL .c s

/-- LD C,A (R85). -/
def execLdCA (s : State) : Result := loadRegReg .c .a s

/-- LD D,B (R85). -/
def execLdDB (s : State) : Result := loadRegReg .d .b s

/-- LD D,C (R85). -/
def execLdDC (s : State) : Result := loadRegReg .d .c s

/-- LD D,D (R86). -/
def execLdDD (s : State) : Result := loadRegReg .d .d s

/-- LD D,E (R85). -/
def execLdDE (s : State) : Result := loadRegReg .d .e s

/-- LD D,H (R85). -/
def execLdDH (s : State) : Result := loadRegReg .d .h s

/-- LD D,L (R85). -/
def execLdDL (s : State) : Result := loadRegReg .d .l s

/-- LD D,(HL) (R88). -/
def execLdDAtHL (s : State) : Result := loadRegAtHL .d s

/-- LD D,A (R85). -/
def execLdDA (s : State) : Result := loadRegReg .d .a s

/-- LD E,B (R85). -/
def execLdEB (s : State) : Result := loadRegReg .e .b s

/-- LD E,C (R85). -/
def execLdEC (s : State) : Result := loadRegReg .e .c s

/-- LD E,D (R85). -/
def execLdED (s : State) : Result := loadRegReg .e .d s

/-- LD E,E (R86). -/
def execLdEE (s : State) : Result := loadRegReg .e .e s

/-- LD E,H (R85). -/
def execLdEH (s : State) : Result := loadRegReg .e .h s

/-- LD E,L (R85). -/
def execLdEL (s : State) : Result := loadRegReg .e .l s

/-- LD E,(HL) (R88). -/
def execLdEAtHL (s : State) : Result := loadRegAtHL .e s

/-- LD E,A (R85). -/
def execLdEA (s : State) : Result := loadRegReg .e .a s

/-- LD H,B (R85). -/
def execLdHB (s : State) : Result := loadRegReg .h .b s

/-- LD H,C (R85). -/
def execLdHC (s : State) : Result := loadRegReg .h .c s

/-- LD H,D (R85). -/
def execLdHD (s : State) : Result := loadRegReg .h .d s

/-- LD H,E (R85). -/
def execLdHE (s : State) : Result := loadRegReg .h .e s

/-- LD H,H (R86). -/
def execLdHH (s : State) : Result := loadRegReg .h .h s

/-- LD H,L (R85). -/
def execLdHL (s : State) : Result := loadRegReg .h .l s

/-- LD H,(HL) (R88). -/
def execLdHAtHL (s : State) : Result := loadRegAtHL .h s

/-- LD H,A (R85). -/
def execLdHA (s : State) : Result := loadRegReg .h .a s

/-- LD L,B (R85). -/
def execLdLB (s : State) : Result := loadRegReg .l .b s

/-- LD L,C (R85). -/
def execLdLC (s : State) : Result := loadRegReg .l .c s

/-- LD L,D (R85). -/
def execLdLD (s : State) : Result := loadRegReg .l .d s

/-- LD L,E (R85). -/
def execLdLE (s : State) : Result := loadRegReg .l .e s

/-- LD L,H (R85). -/
def execLdLH (s : State) : Result := loadRegReg .l .h s

/-- LD L,L (R86). -/
def execLdLL (s : State) : Result := loadRegReg .l .l s

/-- LD L,(HL) (R88). -/
def execLdLAtHL (s : State) : Result := loadRegAtHL .l s

/-- LD L,A (R85). -/
def execLdLA (s : State) : Result := loadRegReg .l .a s

/-- LD (HL),B (R89). -/
def execLdAtHLB (s : State) : Result := storeAtHLReg .b s

/-- LD (HL),C (R89). -/
def execLdAtHLC (s : State) : Result := storeAtHLReg .c s

/-- LD (HL),D (R89). -/
def execLdAtHLD (s : State) : Result := storeAtHLReg .d s

/-- LD (HL),E (R89). -/
def execLdAtHLE (s : State) : Result := storeAtHLReg .e s

/-- LD (HL),H (R89). -/
def execLdAtHLH (s : State) : Result := storeAtHLReg .h s

/-- LD (HL),L (R89). -/
def execLdAtHLL (s : State) : Result := storeAtHLReg .l s

/-- LD (HL),A (R89). -/
def execLdAtHLA (s : State) : Result := storeAtHLReg .a s

/-- LD A,B (R85). -/
def execLdAB (s : State) : Result := loadRegReg .a .b s

/-- LD A,C (R85). -/
def execLdAC (s : State) : Result := loadRegReg .a .c s

/-- LD A,D (R85). -/
def execLdAD (s : State) : Result := loadRegReg .a .d s

/-- LD A,E (R85). -/
def execLdAE (s : State) : Result := loadRegReg .a .e s

/-- LD A,H (R85). -/
def execLdAH (s : State) : Result := loadRegReg .a .h s

/-- LD A,L (R85). -/
def execLdAL (s : State) : Result := loadRegReg .a .l s

/-- LD A,(HL) (R88). -/
def execLdAAtHL (s : State) : Result := loadRegAtHL .a s

/-- LD A,A (R86). -/
def execLdAA (s : State) : Result := loadRegReg .a .a s

end Sys2Proof.Machine
end

