-- ==== Sys2Proof/Machine/Step.lean ====
section
/-! DEFINITION. The step (R70, R79), and how a word is placed where the step fetches it. -/

namespace Sys2Proof.Machine

/-- One step (R79): refused before `init` (R82), a tick while halted (R71), else the fetch of one instruction (R72, R75)
and its handler (R73). -/
def step (s : State) : Host.Outcome State Fault Refusal :=
  if s.initialised then
    if s.halted then .next s.haltedTick
    else exec s.beginStep.fetchInstr.1 s.beginStep.fetchInstr.2
  else .refused .notInitialised

/-- The state with an instruction's bytes stored where the next step fetches it (assumption log 18): in memory at pc, in a machine
that is initialised and running. -/
def State.withFetchWord (s : State) (nbits w : Nat) : State :=
  { (s.loadImage s.pc (tableBytes nbits w)).coverWithMemory s.pc (tableBytes nbits w).length with
    halted := false, initialised := true }

end Sys2Proof.Machine
end

