-- ==== Sys2Proof/Safety.lean ====
section
/-! DEFINITION. The terms the claims use: the forms of the instructions, the tables of R16, R39 and R177 as data, the
invariant of initialised states, reachability, and how a run ends (R180). -/

namespace Sys2Proof

/-- The forms of the instructions, with their operands: the rows of the second table of R54. -/
inductive Form where
  | ldRR (dst src : Reg8)
  | ldRImm (dst : Reg8) (d8 : Byte)
  | ldRAtHL (dst : Reg8)
  | ldAtHLR (src : Reg8)
  | aluR (op : AluOp) (src : Reg8)
  | aluAtHL (op : AluOp)
  | aluImm (op : AluOp) (d8 : Byte)
  | jp (a16 : Word)
  | call (a16 : Word)
  | ret
  | jr (cc : Cond) (r8 : Byte)
  | halt
  | empty (opcode : Byte)
deriving DecidableEq, Repr

/-- The form of each instruction (R54). -/
def Instr.form : Instr → Form
  | .empty op => .empty op
  | .ldBImm d8 => .ldRImm .b d8
  | .ldCImm d8 => .ldRImm .c d8
  | .ldDImm d8 => .ldRImm .d d8
  | .ldEImm d8 => .ldRImm .e d8
  | .jrNz r8 => .jr .nz r8
  | .ldHImm d8 => .ldRImm .h d8
  | .jrZ r8 => .jr .z r8
  | .ldLImm d8 => .ldRImm .l d8
  | .jrNc r8 => .jr .nc r8
  | .jrC r8 => .jr .c r8
  | .ldAImm d8 => .ldRImm .a d8
  | .ldBB => .ldRR .b .b
  | .ldBC => .ldRR .b .c
  | .ldBD => .ldRR .b .d
  | .ldBE => .ldRR .b .e
  | .ldBH => .ldRR .b .h
  | .ldBL => .ldRR .b .l
  | .ldBAtHL => .ldRAtHL .b
  | .ldBA => .ldRR .b .a
  | .ldCB => .ldRR .c .b
  | .ldCC => .ldRR .c .c
  | .ldCD => .ldRR .c .d
  | .ldCE => .ldRR .c .e
  | .ldCH => .ldRR .c .h
  | .ldCL => .ldRR .c .l
  | .ldCAtHL => .ldRAtHL .c
  | .ldCA => .ldRR .c .a
  | .ldDB => .ldRR .d .b
  | .ldDC => .ldRR .d .c
  | .ldDD => .ldRR .d .d
  | .ldDE => .ldRR .d .e
  | .ldDH => .ldRR .d .h
  | .ldDL => .ldRR .d .l
  | .ldDAtHL => .ldRAtHL .d
  | .ldDA => .ldRR .d .a
  | .ldEB => .ldRR .e .b
  | .ldEC => .ldRR .e .c
  | .ldED => .ldRR .e .d
  | .ldEE => .ldRR .e .e
  | .ldEH => .ldRR .e .h
  | .ldEL => .ldRR .e .l
  | .ldEAtHL => .ldRAtHL .e
  | .ldEA => .ldRR .e .a
  | .ldHB => .ldRR .h .b
  | .ldHC => .ldRR .h .c
  | .ldHD => .ldRR .h .d
  | .ldHE => .ldRR .h .e
  | .ldHH => .ldRR .h .h
  | .ldHL => .ldRR .h .l
  | .ldHAtHL => .ldRAtHL .h
  | .ldHA => .ldRR .h .a
  | .ldLB => .ldRR .l .b
  | .ldLC => .ldRR .l .c
  | .ldLD => .ldRR .l .d
  | .ldLE => .ldRR .l .e
  | .ldLH => .ldRR .l .h
  | .ldLL => .ldRR .l .l
  | .ldLAtHL => .ldRAtHL .l
  | .ldLA => .ldRR .l .a
  | .ldAtHLB => .ldAtHLR .b
  | .ldAtHLC => .ldAtHLR .c
  | .ldAtHLD => .ldAtHLR .d
  | .ldAtHLE => .ldAtHLR .e
  | .ldAtHLH => .ldAtHLR .h
  | .ldAtHLL => .ldAtHLR .l
  | .halt => .halt
  | .ldAtHLA => .ldAtHLR .a
  | .ldAB => .ldRR .a .b
  | .ldAC => .ldRR .a .c
  | .ldAD => .ldRR .a .d
  | .ldAE => .ldRR .a .e
  | .ldAH => .ldRR .a .h
  | .ldAL => .ldRR .a .l
  | .ldAAtHL => .ldRAtHL .a
  | .ldAA => .ldRR .a .a
  | .addAB => .aluR .add .b
  | .addAC => .aluR .add .c
  | .addAD => .aluR .add .d
  | .addAE => .aluR .add .e
  | .addAH => .aluR .add .h
  | .addAL => .aluR .add .l
  | .addAAtHL => .aluAtHL .add
  | .addAA => .aluR .add .a
  | .adcAB => .aluR .adc .b
  | .adcAC => .aluR .adc .c
  | .adcAD => .aluR .adc .d
  | .adcAE => .aluR .adc .e
  | .adcAH => .aluR .adc .h
  | .adcAL => .aluR .adc .l
  | .adcAAtHL => .aluAtHL .adc
  | .adcAA => .aluR .adc .a
  | .subB => .aluR .sub .b
  | .subC => .aluR .sub .c
  | .subD => .aluR .sub .d
  | .subE => .aluR .sub .e
  | .subH => .aluR .sub .h
  | .subL => .aluR .sub .l
  | .subAtHL => .aluAtHL .sub
  | .subA => .aluR .sub .a
  | .xorB => .aluR .xor .b
  | .xorC => .aluR .xor .c
  | .xorD => .aluR .xor .d
  | .xorE => .aluR .xor .e
  | .xorH => .aluR .xor .h
  | .xorL => .aluR .xor .l
  | .xorAtHL => .aluAtHL .xor
  | .xorA => .aluR .xor .a
  | .cpB => .aluR .cp .b
  | .cpC => .aluR .cp .c
  | .cpD => .aluR .cp .d
  | .cpE => .aluR .cp .e
  | .cpH => .aluR .cp .h
  | .cpL => .aluR .cp .l
  | .cpAtHL => .aluAtHL .cp
  | .cpA => .aluR .cp .a
  | .jpA16 a16 => .jp a16
  | .addAImm d8 => .aluImm .add d8
  | .ret => .ret
  | .callA16 a16 => .call a16
  | .adcAImm d8 => .aluImm .adc d8
  | .subImm d8 => .aluImm .sub d8
  | .xorImm d8 => .aluImm .xor d8
  | .cpImm d8 => .aluImm .cp d8

/-- The 8-bit register a form writes, if it writes one besides F (R25, R103). -/
def Form.dest : Form → Option Reg8
  | .ldRR dst _ => some dst
  | .ldRImm dst _ => some dst
  | .ldRAtHL dst => some dst
  | .aluR op _ => if Machine.writesA op then some .a else none
  | .aluAtHL op => if Machine.writesA op then some .a else none
  | .aluImm op _ => if Machine.writesA op then some .a else none
  | .ldAtHLR _ => none
  | .jp _ => none
  | .call _ => none
  | .ret => none
  | .jr _ _ => none
  | .halt => none
  | .empty _ => none

/-- Does a form write the flags? Only the ALU instructions do (R16). -/
def Form.writesFlags : Form → Bool
  | .aluR _ _ => true
  | .aluAtHL _ => true
  | .aluImm _ _ => true
  | .ldRR _ _ => false
  | .ldRImm _ _ => false
  | .ldRAtHL _ => false
  | .ldAtHLR _ => false
  | .jp _ => false
  | .call _ => false
  | .ret => false
  | .jr _ _ => false
  | .halt => false
  | .empty _ => false

/-- The CYCLES entry a form charges (R177), the branch outcome given; none for an EMPTY slot (D13). -/
def Form.cycleEntry (taken : Cond → Bool) : Form → Option CycleEntry
  | .ldRR _ _ => some .ldRR
  | .ldRImm _ _ => some .ldRD8
  | .ldRAtHL _ => some .ldRHL
  | .ldAtHLR _ => some .ldHLR
  | .aluR _ _ => some .aluR
  | .aluImm _ _ => some .aluD8
  | .aluAtHL _ => some .aluHL
  | .jp _ => some .jp
  | .call _ => some .call
  | .ret => some .ret
  | .jr cc _ => some (if taken cc then .jrTaken else .jrNotTaken)
  | .halt => some .halt
  | .empty _ => none

namespace Machine

/-- The number the next step adds to `cycle_count` (R77, R177): the halted tick's, or the fetched instruction's entry. -/
def stepCost (s : State) : Nat :=
  if s.halted then cycleCost .haltedStep
  else match s.beginStep.fetchInstr.1.form.cycleEntry s.cond with
    | some e => cycleCost e
    | none => 0

/-- A row of R39: a read or a write, and its address. -/
inductive AccessShape where
  | r (addr : Word)
  | w (addr : Word)
deriving DecidableEq, Repr

/-- An access without its byte. -/
def accessShape : BusAccess → AccessShape
  | .read a _ => .r a
  | .write a _ => .w a

/-- The table of R39 for a running core: the accesses of a step, in order, from `p = pc`, `sp` and `HL` at its start. -/
def accessTable (p sp hl : Word) : Form → List AccessShape
  | .empty _ => [.r p]
  | .ldRR _ _ => [.r p]
  | .aluR _ _ => [.r p]
  | .halt => [.r p]
  | .ldRImm _ _ => [.r p, .r (p + 1#16)]
  | .aluImm _ _ => [.r p, .r (p + 1#16)]
  | .ldRAtHL _ => [.r p, .r hl]
  | .aluAtHL _ => [.r p, .r hl]
  | .ldAtHLR _ => [.r p, .w hl]
  | .jr _ _ => [.r p, .r (p + 1#16)]
  | .jp _ => [.r p, .r (p + 1#16), .r (p + 2#16)]
  | .call _ => [.r p, .r (p + 1#16), .r (p + 2#16), .w (sp - 2#16), .w (sp - 1#16)]
  | .ret => [.r p, .r sp, .r (sp + 1#16)]

/-- The addresses a form stores to, from the state its meaning runs in: the same expressions the meanings use. -/
def storedAddresses (s : State) : Form → List Word
  | .ldAtHLR _ => [s.hlAddress]
  | .call _ => [dec16 s.sp 2, inc16 (dec16 s.sp 2) 1]
  | .ldRR _ _ => []
  | .ldRImm _ _ => []
  | .ldRAtHL _ => []
  | .aluR _ _ => []
  | .aluAtHL _ => []
  | .aluImm _ _ => []
  | .jp _ => []
  | .ret => []
  | .jr _ _ => []
  | .halt => []
  | .empty _ => []

/-- What is true of every state that `init` made and that steps and the bus owner changed: the low nibble of F is zero (R14),
`ime` is clear (R20), the memory of the bus is in its canonical form, and `init` has run (R82). -/
abbrev State.Inv (s : State) : Prop :=
  s.f.extractLsb' 0 4 = 0#4 ∧ s.ime = false ∧ s.bus.mem.wf = true ∧ s.initialised = true

/-- The core is initialised and `Running` (R139): its step fetches. -/
abbrev State.Running (s : State) : Prop := s.initialised = true ∧ s.halted = false

/-- The states of a run (R171, R44): made by `init` with legal parameters on any bus, then by non-faulting steps; between
them the bus owner, or another agent, may leave the bus in any condition. -/
inductive Reachable : State → Prop where
  | init (p : ResetParams) (b : Bus) : p.Ok → b.mem.wf = true → Reachable (State.init p b)
  | step (s t : State) : Reachable s → Machine.step s = .next t → Reachable t
  | owner (s : State) (b : Bus) : Reachable s → b.mem.wf = true → Reachable { s with bus := b }

/-- The run of `k` steps: it stops at the first fault or refusal (R153). -/
def run : Nat → State → Result
  | 0, s => .next s
  | k + 1, s =>
    match step s with
    | .next t => run k t
    | .fault r => .fault r
    | .refused r => .refused r

/-- The sum of the costs of the next `k` steps (R178). -/
def runCost : Nat → State → Nat
  | 0, _ => 0
  | k + 1, s =>
    match step s with
    | .next t => stepCost s + runCost k t
    | .fault _ => 0
    | .refused _ => 0

/-- A run that ends normally: some state of it is halted (R180). -/
def EndsHalted (s : State) : Prop := ∃ k t, run k s = .next t ∧ t.halted = true

/-- A run that ends abnormally, with the fault (R180). -/
def EndsFaulted (s : State) (r : Fault) : Prop := ∃ k, run k s = .fault r

/-- The order constraints R177 puts on a CYCLES table. -/
structure CyclesOk (t : CycleEntry → Nat) : Prop where
  positive : ∀ e, 0 < t e
  haltedMinimal : ∀ e, t .haltedStep ≤ t e
  loadImm : t .ldRR < t .ldRD8
  loadMem : t .ldRR < t .ldRHL
  storeMem : t .ldRR < t .ldHLR
  aluImm : t .aluR < t .aluD8
  aluMem : t .aluR < t .aluHL
  jumpTaken : t .jrNotTaken < t .jrTaken

end Machine

end Sys2Proof
end

