-- ==== Sys2Proof/Certificates/Slice0/Obligations.lean ====
section
/-! DEFINITION. The statements for the provers. Each docstring names the rule of spec/ it formalises, and the decision D<n> of the
spec and the assumption-log entry where it rests on one. -/

open Sys2Proof Sys2Proof.Machine

/-! ### Words the statements share -/

namespace Sys2Proof.Claims

/-- `0x80*Z + 0x40*N + 0x20*Hf + 0x10*Cf` (R13). -/
def flagsValue (z n h c : Bool) : Byte :=
  BitVec.ofNat 8 (0x80 * z.toNat + 0x40 * n.toNat + 0x20 * h.toNat + 0x10 * c.toNat)

/-- `HL = (H << 8) | L` as a number turned into an address (R7). -/
def hl (s : State) : Word := BitVec.ofNat 16 (256 * s.h.toNat + s.l.toNat)

/-- What an ALU instruction does to the whole state: A and F as given, its cost, the bus and its record, nothing
else (R103). -/
def AluEffect (s t : State) (a' : Byte) (z n h c : Bool) (cost : CycleEntry) (log : List BusAccess) : Prop :=
  t = { s with
    a := a', f := flagsValue z n h c, cycleCount := s.cycleCount + cycleCost cost
    bus := s.bus.after log, busLog := s.busLog ++ log }

/-- The additive derivation of R100 for the operand `b` and the carry-in. -/
def SumEffect (s t : State) (b : Byte) (cin : Bool) (cost : CycleEntry) (log : List BusAccess) : Prop :=
  AluEffect s t (BitVec.ofNat 8 ((s.a.toNat + b.toNat + cin.toNat) % 256))
    (decide ((s.a.toNat + b.toNat + cin.toNat) % 256 = 0)) false
    (decide (s.a.toNat % 16 + b.toNat % 16 + cin.toNat > 15)) (decide (s.a.toNat + b.toNat + cin.toNat > 255)) cost log

/-- The subtractive derivation of R101 for the operand `b`, with `a'` the accumulator afterwards. -/
def DifferenceEffect (s t : State) (a' b : Byte) (cost : CycleEntry) (log : List BusAccess) : Prop :=
  AluEffect s t a' (decide (s.a = b)) true (decide (s.a.toNat % 16 < b.toNat % 16)) (decide (s.a.toNat < b.toNat)) cost log

/-- The 8-bit difference, modulo 256. -/
def difference (a b : Byte) : Byte := BitVec.ofNat 8 ((a.toNat + 256 - b.toNat) % 256)

/-- Everything but the seven operand registers, the counter, the bus and its record is as before, the bytes of memory
among it. -/
def RestKept (s t : State) : Prop :=
  t.f = s.f ∧ t.sp = s.sp ∧ t.pc = s.pc ∧ t.halted = s.halted ∧ t.ime = s.ime ∧ t.initialised = s.initialised ∧
  ∀ a, t.bus.mem.read a = s.bus.mem.read a

/-- A change of the next state alone; a fault or a refusal stays. -/
def mapNext (g : State → State) : Result → Result
  | .next t => .next (g t)
  | .fault r => .fault r
  | .refused r => .refused r

/-- What a bus of any kind answers: a machine of its own, by its read and its write, from a state of it. -/
def machineAnswers {σ : Type} (read : σ → Word → Byte × σ) (write : σ → Word → Byte → σ) : σ → List BusAccess → Prop
  | _, [] => True
  | x, .read a v :: rest => (read x a).1 = v ∧ machineAnswers read write (read x a).2 rest
  | x, .write a v :: rest => machineAnswers read write (write x a v) rest

/-- The reads of a list of accesses return what a function of the accesses before them and of the address gives. -/
def answersByHistory (f : List BusAccess → Word → Byte) : List BusAccess → List BusAccess → Prop
  | _, [] => True
  | past, .read a v :: rest => f past a = v ∧ answersByHistory f (past ++ [.read a v]) rest
  | past, .write a v :: rest => answersByHistory f (past ++ [.write a v]) rest

/-- Is the access one at a device? -/
def atDevice (b : Bus) : BusAccess → Bool
  | .read a _ => b.isDevice a
  | .write a _ => b.isDevice a

end Sys2Proof.Claims

open Sys2Proof.Claims

/-! ### Encoding -/

/-- Decoding the bytes of a well-formed instruction, whatever follows them, gives it back with every operand (R50, R51, R53). -/
def Obligations.DecodeOfEncodeIsIdentity : Prop :=
  ∀ (i : Instr) (rest : List Byte), i.wf = true → decode (encode i ++ rest) = .ok (i, rest)

/-- What decodes is well formed, and its encoding is the bytes it was read from: no two byte strings mean one instruction, and
no operand bit is dropped (R51, R60). -/
def Obligations.EncodeOfDecodeIsIdentity : Prop :=
  ∀ (bytes : List Byte) (i : Instr) (rest : List Byte), decode bytes = .ok (i, rest) →
    i.wf = true ∧ encode i ++ rest = bytes

/-- The slots that are EMPTY are those R55 lists, 133 of them (D1, assumption log 8). -/
def Obligations.EmptySlotsAreTheListedBytes : Prop :=
  (∀ op : Byte, decodeOpcode op = .empty ↔ isEmptyByte op = true) ∧
  (List.range 256).countP (fun n => isEmptyByte (BitVec.ofNat 8 n)) = 133

/-- The opcode bytes follow the second table of R54, operand bytes as R51 and R53 lay them out (D2, assumption log 9). -/
def Obligations.OpcodeBytesFollowTheTable : Prop :=
  ∀ (r r' : Reg8) (v : Byte) (w : Word),
    encode (.ldRR r r') = [BitVec.ofNat 8 (0x40 + 8 * r.index + r'.index)] ∧
    encode (.ldRImm r v) = [BitVec.ofNat 8 (0x06 + 8 * r.index), v] ∧
    encode (.ldRAtHL r) = [BitVec.ofNat 8 (0x46 + 8 * r.index)] ∧
    encode (.ldAtHLR r) = [BitVec.ofNat 8 (0x70 + r.index)] ∧
    encode (.aluR .add r) = [BitVec.ofNat 8 (0x80 + r.index)] ∧ encode (.aluR .adc r) = [BitVec.ofNat 8 (0x88 + r.index)] ∧
    encode (.aluR .sub r) = [BitVec.ofNat 8 (0x90 + r.index)] ∧ encode (.aluR .xor r) = [BitVec.ofNat 8 (0xA8 + r.index)] ∧
    encode (.aluR .cp r) = [BitVec.ofNat 8 (0xB8 + r.index)] ∧
    encode (.aluAtHL .add) = [0x86#8] ∧ encode (.aluAtHL .adc) = [0x8E#8] ∧ encode (.aluAtHL .sub) = [0x96#8] ∧
    encode (.aluAtHL .xor) = [0xAE#8] ∧ encode (.aluAtHL .cp) = [0xBE#8] ∧
    encode (.aluImm .add v) = [0xC6#8, v] ∧ encode (.aluImm .adc v) = [0xCE#8, v] ∧ encode (.aluImm .sub v) = [0xD6#8, v] ∧
    encode (.aluImm .xor v) = [0xEE#8, v] ∧ encode (.aluImm .cp v) = [0xFE#8, v] ∧
    encode (.jpA16 w) = [0xC3#8, BitVec.ofNat 8 (w.toNat % 256), BitVec.ofNat 8 (w.toNat / 256)] ∧
    encode (.callA16 w) = [0xCD#8, BitVec.ofNat 8 (w.toNat % 256), BitVec.ofNat 8 (w.toNat / 256)] ∧
    encode .ret = [0xC9#8] ∧ encode .halt = [0x76#8] ∧
    encode (.jr .nz v) = [0x20#8, v] ∧ encode (.jr .z v) = [0x28#8, v] ∧ encode (.jr .nc v) = [0x30#8, v] ∧
    encode (.jr .c v) = [0x38#8, v]

/-- One word of each family, written out from the encoding tables, decodes to its instruction (R52, R54; sanity). -/
def Obligations.SampleWordsDecode : Prop :=
  decode [0b01111000#8] = .ok (.ldAB, []) ∧ decode [0b00000110#8, 0x13#8] = .ok (.ldBImm 0x13#8, []) ∧
  decode [0b01100110#8] = .ok (.ldHAtHL, []) ∧ decode [0b01110101#8] = .ok (.ldAtHLL, []) ∧
  decode [0b10101111#8] = .ok (.xorA, []) ∧ decode [0b11000110#8, 0x20#8] = .ok (.addAImm 0x20#8, []) ∧
  decode [0b10001110#8] = .ok (.adcAAtHL, []) ∧ decode [0b11001101#8, 0x0A#8, 0x01#8] = .ok (.callA16 0x010A#16, []) ∧
  decode [0b00110000#8, 0x80#8] = .ok (.jrNc 0x80#8, []) ∧ decode [0b01110110#8] = .ok (.halt, []) ∧
  decode [0b11001011#8, 0x00#8] = .ok (.empty 0xCB#8, [0x00#8])

/-- The opcode byte alone tells how many bytes an instruction has, and the decoder accepts every list that is long enough
(R50, R56, R61). -/
def Obligations.OpcodeTellsTheLength : Prop :=
  ∀ (op : Byte) (tail : List Byte),
    ((decodeOpcode op).length ≤ tail.length + 1 →
      ∃ i, decode (op :: tail) = .ok (i, tail.drop ((decodeOpcode op).length - 1)) ∧ i.opcode = op ∧
        i.length = (decodeOpcode op).length) ∧
    (tail.length + 1 < (decodeOpcode op).length → decode (op :: tail) = .error (.missingOperand op))

/-! ### The step -/

/-- A running core executes the instruction its bytes at pc decode to, from the state in which the whole instruction has been
fetched: pc past it, its bytes read in order and no others, nothing else changed (R72, R73, R75), on any bus. That the operand
fetch is shared and comes before `exec`, where R75 has the handler do it, is DEDUCED (assumption log 19); `busLog` is the
model's own field (assumption log 5). -/
def Obligations.StepRunsTheDecodedInstruction : Prop :=
  ∀ (s : State) (i : Instr) (rest : List Byte), s.Running → decode (s.bus.bytesFrom s.pc 3) = .ok (i, rest) →
    step s = exec i { s with
      pc := s.pc + BitVec.ofNat 16 i.length
      bus := s.bus.after (s.bus.readsFrom s.pc i.length)
      busLog := s.bus.readsFrom s.pc i.length }

/-- A step of a halted core adds the cost of the halted tick, makes no bus access, and changes nothing else (R71; that the cost
goes to `cycle_count` is D11, assumption log 13). -/
def Obligations.HaltedStepOnlyTicks : Prop :=
  ∀ s : State, s.initialised = true → s.halted = true →
    step s = .next { s with cycleCount := s.cycleCount + cycleCost .haltedStep, busLog := [] }

/-- Fetching an EMPTY byte raises the fault with that byte and the address it lived at, one less than the advanced pc
(R74, R151). -/
def Obligations.EmptyOpcodeReportsByteAndAddress : Prop :=
  (∀ s : State, s.Running → isEmptyByte (s.bus.peek s.pc) = true →
    step s = .fault (.unimplementedOpcode (s.bus.peek s.pc) s.pc)) ∧
  ∀ (op : Byte) (s : State), exec (.empty op) s = .fault (.unimplementedOpcode op (s.pc - 1#16))

/-- The fault is raised exactly when a running core fetches an EMPTY byte, and is that fault (R150, R156). -/
def Obligations.FaultExactlyOnEmptyOpcode : Prop :=
  ∀ (s : State) (r : Fault), step s = .fault r ↔
    s.Running ∧ isEmptyByte (s.bus.peek s.pc) = true ∧ r = .unimplementedOpcode (s.bus.peek s.pc) s.pc

/-- The state a fault leaves: pc advanced past the byte, one bus read, nothing else changed, no cost; the handler of the EMPTY
slot runs in it (R152; that no cost is added is D13, assumption log 14). -/
def Obligations.FaultLeavesOnlyTheFetch : Prop :=
  ∀ s : State, s.atFault =
      { s with pc := s.pc + 1#16, bus := (s.bus.read s.pc).2, busLog := [.read s.pc (s.bus.peek s.pc)] } ∧
    (isEmptyByte (s.bus.peek s.pc) = true → s.beginStep.fetchInstr = (.empty (s.bus.peek s.pc), s.atFault))

/-- A step is refused exactly before `init` (R82, D19; the field `initialised` is the model's own, assumption log 6). -/
def Obligations.StepRefusedExactlyBeforeInit : Prop :=
  ∀ (s : State) (r : Refusal), step s = .refused r ↔ s.initialised = false ∧ r = .notInitialised

/-- Every registered instruction completes for every operand value and every state, and no step stops with another fault than
the one of an EMPTY byte (R154). -/
def Obligations.RegisteredInstructionsAlwaysComplete : Prop :=
  (∀ (i : Instr) (s : State), (∀ op, i ≠ .empty op) → ∃ t, exec i s = .next t) ∧
  (∀ (s : State) (r : Fault), step s = .fault r →
    ∃ op addr, r = .unimplementedOpcode op addr ∧ isEmptyByte op = true ∧ op = s.bus.peek s.pc ∧ addr = s.pc)

/-! ### Loads -/

/-- LD r,r' and LD r,r: the destination takes the source's value; no flag, no other register, no bus access, the one cost of
both (R85, R86). -/
def Obligations.LoadRegRegCopies : Prop :=
  ∀ (dst src : Reg8) (s : State),
    encode (.ldRR dst src) = [BitVec.ofNat 8 (0x40 + 8 * dst.index + src.index)] ∧
    ∃ t, exec (.ldRR dst src) s = .next t ∧ t.reg dst = s.reg src ∧ (∀ r, r ≠ dst → t.reg r = s.reg r) ∧
      RestKept s t ∧ t.bus = s.bus ∧ t.busLog = s.busLog ∧ t.cycleCount = s.cycleCount + cycleCost .ldRR

/-- LD r,d8 (R87): the destination takes the immediate, at a larger cost than a register copy. -/
def Obligations.LoadRegImmediate : Prop :=
  ∀ (dst : Reg8) (v : Byte) (s : State),
    encode (.ldRImm dst v) = [BitVec.ofNat 8 (0x06 + 8 * dst.index), v] ∧
    ∃ t, exec (.ldRImm dst v) s = .next t ∧ t.reg dst = v ∧ (∀ r, r ≠ dst → t.reg r = s.reg r) ∧
      RestKept s t ∧ t.bus = s.bus ∧ t.busLog = s.busLog ∧ t.cycleCount = s.cycleCount + cycleCost .ldRD8 ∧
      cycleCost .ldRR < cycleCost .ldRD8

/-- LD r,(HL) (R88): the destination takes the byte at HL, HL as it was before the write; one data read. -/
def Obligations.LoadRegFromMemory : Prop :=
  ∀ (dst : Reg8) (s : State),
    encode (.ldRAtHL dst) = [BitVec.ofNat 8 (0x46 + 8 * dst.index)] ∧
    ∃ t, exec (.ldRAtHL dst) s = .next t ∧ t.reg dst = (s.bus.read (hl s)).1 ∧ (∀ r, r ≠ dst → t.reg r = s.reg r) ∧
      RestKept s t ∧ t.bus = (s.bus.read (hl s)).2 ∧ t.busLog = s.busLog ++ [.read (hl s) (s.bus.read (hl s)).1] ∧
      t.cycleCount = s.cycleCount + cycleCost .ldRHL

/-- LD (HL),r (R89): one bus write of the source's value at HL; no register and no flag changes. No other byte of memory changes,
on any bus; where RAM answers at HL, as on the reference bus of R43 everywhere, the byte there reads back as the value: that rests
on the model's bus (DESIGN CHOICE, assumption log 3). -/
def Obligations.StoreRegToMemory : Prop :=
  ∀ (src : Reg8) (s : State), s.bus.mem.wf = true →
    encode (.ldAtHLR src) = [BitVec.ofNat 8 (0x70 + src.index)] ∧
    ∃ t, exec (.ldAtHLR src) s = .next t ∧ s.hlAddress = hl s ∧
      t = { s with bus := s.bus.write (hl s) (s.reg src), cycleCount := s.cycleCount + cycleCost .ldHLR,
                   busLog := s.busLog ++ [.write (hl s) (s.reg src)] } ∧
      (s.bus.part s.hlAddress = .ram → t.bus.peek s.hlAddress = s.reg src) ∧
      ∀ a, a ≠ s.hlAddress → t.bus.mem.read a = s.bus.mem.read a ∧ (s.bus.isDevice a = false → t.bus.peek a = s.bus.peek a)

/-! ### Arithmetic -/

/-- ADD in its three operand forms, with the additive derivation (R100, R105, R106, R107). -/
def Obligations.AddResult : Prop :=
  ∀ s : State,
    (∀ r, encode (.aluR .add r) = [BitVec.ofNat 8 (0x80 + r.index)] ∧
      ∃ t, exec (.aluR .add r) s = .next t ∧ SumEffect s t (s.reg r) false .aluR []) ∧
    (encode .addAAtHL = [0x86#8] ∧
      ∃ t, exec .addAAtHL s = .next t ∧
        SumEffect s t (s.bus.peek (hl s)) false .aluHL [.read (hl s) (s.bus.peek (hl s))]) ∧
    (∀ v, encode (.addAImm v) = [0xC6#8, v] ∧ ∃ t, exec (.addAImm v) s = .next t ∧ SumEffect s t v false .aluD8 [])

/-- ADC in its three operand forms: the carry flag before the instruction is folded into both sums (R108, R109, R110). -/
def Obligations.AdcResult : Prop :=
  ∀ s : State,
    (∀ r, encode (.aluR .adc r) = [BitVec.ofNat 8 (0x88 + r.index)] ∧
      ∃ t, exec (.aluR .adc r) s = .next t ∧ SumEffect s t (s.reg r) (s.f.getLsbD 4) .aluR []) ∧
    (encode .adcAAtHL = [0x8E#8] ∧
      ∃ t, exec .adcAAtHL s = .next t ∧
        SumEffect s t (s.bus.peek (hl s)) (s.f.getLsbD 4) .aluHL [.read (hl s) (s.bus.peek (hl s))]) ∧
    (∀ v, encode (.adcAImm v) = [0xCE#8, v] ∧
      ∃ t, exec (.adcAImm v) s = .next t ∧ SumEffect s t v (s.f.getLsbD 4) .aluD8 [])

/-- SUB in its three operand forms. That SUB exists is D4, its H and C are D5 (assumption log 10). -/
def Obligations.SubResult : Prop :=
  ∀ s : State,
    (∀ r, ∃ t, exec (.aluR .sub r) s = .next t ∧
      DifferenceEffect s t (difference s.a (s.reg r)) (s.reg r) .aluR []) ∧
    (∃ t, exec .subAtHL s = .next t ∧
      DifferenceEffect s t (difference s.a (s.bus.peek (hl s))) (s.bus.peek (hl s)) .aluHL
        [.read (hl s) (s.bus.peek (hl s))]) ∧
    (∀ v, ∃ t, exec (.subImm v) s = .next t ∧ DifferenceEffect s t (difference s.a v) v .aluD8 [])

/-- XOR in its three operand forms: bitwise, Z from the result, the other flags clear. Beyond XOR A this is D6
(assumption log 11). -/
def Obligations.XorResult : Prop :=
  ∀ s : State,
    (∀ r, ∃ t, exec (.aluR .xor r) s = .next t ∧
      AluEffect s t (s.a ^^^ s.reg r) (decide (s.a = s.reg r)) false false false .aluR []) ∧
    (∃ t, exec .xorAtHL s = .next t ∧
      AluEffect s t (s.a ^^^ s.bus.peek (hl s)) (decide (s.a = s.bus.peek (hl s))) false false false .aluHL
        [.read (hl s) (s.bus.peek (hl s))]) ∧
    (∀ v, ∃ t, exec (.xorImm v) s = .next t ∧ AluEffect s t (s.a ^^^ v) (decide (s.a = v)) false false false .aluD8 [])

/-- CP in its three operand forms: the flags of a subtraction, A never changed (R117 to R119; H and C are D5, assumption
log 10). -/
def Obligations.CompareResult : Prop :=
  ∀ s : State,
    (∀ r, ∃ t, exec (.aluR .cp r) s = .next t ∧ DifferenceEffect s t s.a (s.reg r) .aluR []) ∧
    (∃ t, exec .cpAtHL s = .next t ∧
      DifferenceEffect s t s.a (s.bus.peek (hl s)) .aluHL [.read (hl s) (s.bus.peek (hl s))]) ∧
    (∀ v, ∃ t, exec (.cpImm v) s = .next t ∧ DifferenceEffect s t s.a v .aluD8 [])

/-- With the carry flag clear, ADC does exactly what ADD does, in every form (42_alu.md, R108's corner case). -/
def Obligations.AdcWithoutCarryIsAdd : Prop :=
  ∀ s : State, s.f.getLsbD 4 = false →
    (∀ r, exec (.aluR .adc r) s = exec (.aluR .add r) s) ∧ exec (.aluAtHL .adc) s = exec (.aluAtHL .add) s ∧
    ∀ v, exec (.aluImm .adc v) s = exec (.aluImm .add v) s

/-! ### Control transfer -/

/-- JP a16 (R131): pc takes the address, unconditionally; nothing else changes. -/
def Obligations.JumpAbsolute : Prop :=
  ∀ (w : Word) (s : State),
    encode (.jpA16 w) = [0xC3#8, BitVec.ofNat 8 (w.toNat % 256), BitVec.ofNat 8 (w.toNat / 256)] ∧
    exec (.jpA16 w) s = .next { s with pc := w, cycleCount := s.cycleCount + cycleCost .jp }

/-- CALL a16 (R132): the post-fetch pc pushed by two bus writes, low byte at the new sp and high byte above it, then the jump; every
register, flag and other byte of memory unchanged. The order of the two writes is D16 and the wrap of `sp + 1` D15 (assumption
logs 16 and 15). That the bytes read back, where RAM answers, rests on the model's bus (DESIGN CHOICE, assumption log 3). -/
def Obligations.CallPushesAndJumps : Prop :=
  ∀ (w : Word) (s : State), s.bus.mem.wf = true →
    encode (.callA16 w) = [0xCD#8, BitVec.ofNat 8 (w.toNat % 256), BitVec.ofNat 8 (w.toNat / 256)] ∧
    ∃ t, exec (.callA16 w) s = .next t ∧
      t = { s with
        sp := s.sp - 2#16, pc := w, cycleCount := s.cycleCount + cycleCost .call
        bus := (s.bus.write (s.sp - 2#16) (BitVec.ofNat 8 (s.pc.toNat % 256))).write (s.sp - 1#16)
          (BitVec.ofNat 8 (s.pc.toNat / 256))
        busLog := s.busLog ++ [.write (s.sp - 2#16) (BitVec.ofNat 8 (s.pc.toNat % 256)),
          .write (s.sp - 1#16) (BitVec.ofNat 8 (s.pc.toNat / 256))] } ∧
      (s.bus.part (dec16 s.sp 2) = .ram → t.bus.peek (dec16 s.sp 2) = BitVec.ofNat 8 (s.pc.toNat % 256)) ∧
      (s.bus.part (inc16 (dec16 s.sp 2) 1) = .ram →
        t.bus.peek (inc16 (dec16 s.sp 2) 1) = BitVec.ofNat 8 (s.pc.toNat / 256)) ∧
      ∀ a, a ≠ dec16 s.sp 2 → a ≠ inc16 (dec16 s.sp 2) 1 →
        t.bus.mem.read a = s.bus.mem.read a ∧ (s.bus.isDevice a = false → t.bus.peek a = s.bus.peek a)

/-- RET (R133): pc takes the word at sp, low byte at sp and high byte above it, by two bus reads; sp goes up by two; no byte of
memory changes. The order of the two reads is D16 and the wrap of `sp + 1` D15 (assumption logs 16 and 15). -/
def Obligations.ReturnPopsIntoPc : Prop :=
  ∀ s : State, encode .ret = [0xC9#8] ∧
    let low := s.bus.read s.sp
    let high := low.2.read (s.sp + 1#16)
    exec .ret s = .next { s with
      pc := BitVec.ofNat 16 (low.1.toNat + 256 * high.1.toNat)
      sp := s.sp + 2#16
      cycleCount := s.cycleCount + cycleCost .ret
      bus := high.2
      busLog := s.busLog ++ [.read s.sp low.1, .read (s.sp + 1#16) high.1] } ∧
    ∀ a, high.2.mem.read a = s.bus.mem.read a

/-- JR NZ,r8 (R134): with Z clear the signed offset is added to the post-fetch pc, modulo 65536, at the larger cost; with Z set
pc stays and the smaller cost is charged. -/
def Obligations.JumpIfZeroClear : Prop :=
  ∀ (v : Byte) (s : State), encode (.jrNz v) = [0x20#8, v] ∧
    (s.f.getLsbD 7 = false → exec (.jrNz v) s = .next { s with
      pc := BitVec.ofInt 16 ((s.pc.toNat : Int) + v.toInt), cycleCount := s.cycleCount + cycleCost .jrTaken }) ∧
    (s.f.getLsbD 7 = true → exec (.jrNz v) s = .next { s with cycleCount := s.cycleCount + cycleCost .jrNotTaken }) ∧
    cycleCost .jrNotTaken < cycleCost .jrTaken

/-- JR cc,r8 for the four conditions: NZ and Z read bit 7 of F, NC and C bit 4 (R130, R144; the set of conditions is D7,
assumption log 12). -/
def Obligations.ConditionalJumps : Prop :=
  ∀ (v : Byte) (s : State) (cc : Cond),
    let taken := match cc with
      | .nz => !s.f.getLsbD 7
      | .z => s.f.getLsbD 7
      | .nc => !s.f.getLsbD 4
      | .c => s.f.getLsbD 4
    exec (.jr cc v) s = .next { s with
      pc := if taken then BitVec.ofInt 16 ((s.pc.toNat : Int) + v.toInt) else s.pc
      cycleCount := s.cycleCount + cycleCost (if taken then .jrTaken else .jrNotTaken) }

/-- HALT sets `halted` and charges its cost; nothing else (R138; D12 and D2, assumption logs 13 and 9). -/
def Obligations.HaltSetsHalted : Prop :=
  ∀ s : State, encode .halt = [0x76#8] ∧
    exec .halt s = .next { s with halted := true, cycleCount := s.cycleCount + cycleCost .halt }

/-- Call followed immediately by return restores pc to the address after the call and sp to its value before it, for any sp and
pc (R142): on any bus, when the instruction at the call target is RET (premise (b)) and the bus then returns at the two stack
addresses the bytes CALL wrote there (premise (a)). Where RAM answers at those two addresses, as on the reference bus, premise (a)
is no premise: that clause rests on the model's bus (DESIGN CHOICE, assumption log 3). -/
def Obligations.CallThenReturnRestores : Prop :=
  ∀ s : State, s.Running → s.bus.peek s.pc = 0xCD#8 →
    ∃ t, step s = .next t ∧
      (t.bus.peek t.pc = 0xC9#8 →
        (t.bus.read t.pc).2.answers [.read (s.sp - 2#16) (BitVec.ofNat 8 ((s.pc + 3#16).toNat % 256)),
          .read (s.sp - 1#16) (BitVec.ofNat 8 ((s.pc + 3#16).toNat / 256))] →
        ∃ u, step t = .next u ∧ u.pc = s.pc + 3#16 ∧ u.sp = s.sp) ∧
      (t.bus.peek t.pc = 0xC9#8 → s.bus.mem.wf = true → s.bus.part (s.sp - 2#16) = .ram → s.bus.part (s.sp - 1#16) = .ram →
        ∃ u, step t = .next u ∧ u.pc = s.pc + 3#16 ∧ u.sp = s.sp)

/-! ### Reset -/

/-- `init` sets the registers and pointers to their parameters, clears `halted`, `ime` and `cycle_count`, and does not touch
the bus or its memory (R170). -/
def Obligations.InitSetsTheStartupState : Prop :=
  ∀ (p : ResetParams) (b : Bus),
    let s := State.init p b
    s.a = p.a ∧ s.f = p.f ∧ s.b = p.b ∧ s.c = p.c ∧ s.d = p.d ∧ s.e = p.e ∧ s.h = p.h ∧ s.l = p.l ∧ s.sp = p.sp ∧
    s.pc = p.pc ∧ s.halted = false ∧ s.ime = false ∧ s.cycleCount = 0 ∧ s.bus = b ∧ s.busLog = []

/-- The dump right after reset, the spec's suggested defaults (95_test_vectors.md 2.10). The ten values are the model's choice
(assumption log 1). -/
def Obligations.ResetDumpIsTheSuggestedOne : Prop :=
  State.reset.dump = { pc := 0x0100#16, sp := 0xFFFE#16, af := 0x01B0#16, bc := 0x0013#16, de := 0x00D8#16, hl := 0x014D#16 }

/-- `init` with legal parameters gives the invariant, whatever the bus; so does reset (R14, R20, R23). -/
def Obligations.InitEstablishesTheInvariant : Prop :=
  (∀ (p : ResetParams) (b : Bus), p.Ok → b.mem.wf = true → (State.init p b).Inv) ∧ State.reset.Inv

/-! ### The whole machine -/

/-- Every step keeps the invariant: the low nibble of F is zero, `ime` is clear, memory is canonical (R14, R20, R15). -/
def Obligations.StepKeepsTheInvariant : Prop :=
  ∀ s t : State, s.Inv → step s = .next t → t.Inv

/-- `F[3:0] = 0` in every reachable state, over every choice of the reset parameters, every bus, and whatever the bus owner
does to it between steps (R14; D25, assumption log 20). -/
def Obligations.ReachableStatesKeepTheLowNibbleClear : Prop :=
  ∀ s : State, Reachable s → s.f.extractLsb' 0 4 = 0#4 ∧ s.Inv

/-- The control state machine (R139): Running goes to Halted exactly on the byte 0x76, the run ends on an EMPTY byte, every other
byte keeps Running, and Halted stays. -/
def Obligations.ControlStateMachine : Prop :=
  ∀ s : State, s.initialised = true →
    (s.halted = false → isEmptyByte (s.bus.peek s.pc) = false → s.bus.peek s.pc ≠ 0x76#8 →
      ∃ t, step s = .next t ∧ t.halted = false) ∧
    (s.halted = false → s.bus.peek s.pc = 0x76#8 → ∃ t, step s = .next t ∧ t.halted = true) ∧
    (s.halted = false → isEmptyByte (s.bus.peek s.pc) = true → ∃ r, step s = .fault r) ∧
    (s.halted = true → ∃ t, step s = .next t ∧ t.halted = true)

/-- Only CALL and RET change sp: down by two, up by two, modulo 65536 (R17). -/
def Obligations.OnlyCallAndReturnMoveSp : Prop :=
  ∀ (i : Instr) (s t : State), exec i s = .next t →
    t.sp = match i.form with
      | .call _ => s.sp - 2#16
      | .ret => s.sp + 2#16
      | _ => s.sp

/-- The flags of every instruction: an ALU instruction writes all of F, the four flags from its operation and the low nibble zero,
leaving no bit of the old F: but for Cf, which ADC reads, F afterwards does not depend on F before; every other instruction leaves
F alone (10_state.md section 3; for control transfers D27, assumption log 23). -/
def Obligations.OnlyAluInstructionsWriteFlags : Prop :=
  ∀ (i : Instr) (s t : State), exec i s = .next t →
    (i.form.writesFlags = false → t.f = s.f) ∧
    (i.form.writesFlags = true →
      (∃ z n h c : Bool, t.f = flagsValue z n h c) ∧
      ∀ f' : Byte, f'.getLsbD 4 = s.f.getLsbD 4 → ∃ t', exec i { s with f := f' } = .next t' ∧ t'.f = t.f)

/-- The register frame of every instruction: a register that is not its destination is unchanged, only JP, CALL, RET and JR
change pc after the fetch, and only HALT changes `halted` (10_state.md, the table of section 1). -/
def Obligations.RegisterFrame : Prop :=
  ∀ (i : Instr) (s t : State), exec i s = .next t →
    (∀ r, i.form.dest ≠ some r → t.reg r = s.reg r) ∧
    (t.pc ≠ s.pc → (∃ w, i = .jpA16 w) ∨ (∃ w, i = .callA16 w) ∨ i = .ret ∨ ∃ cc v, i = .jr cc v) ∧
    (t.halted ≠ s.halted → i = .halt) ∧ t.initialised = s.initialised

/-- The memory frame of every instruction: every byte of memory outside the addresses the form stores to is as before and reads as
before, and a form that stores nothing changes no byte; what is a device, ROM or RAM stays so (20_memory.md, R30 and R39; on the
model's bus, assumption log 3). -/
def Obligations.MemoryFrame : Prop :=
  ∀ (i : Instr) (s t : State), exec i s = .next t →
    t.bus.map = s.bus.map ∧
    ∀ a, a ∉ storedAddresses s i.form →
      t.bus.mem.read a = s.bus.mem.read a ∧ (s.bus.isDevice a = false → t.bus.peek a = s.bus.peek a)

/-- `ime` is never read and never changed by a step, and is 0 in every reachable state (R20). -/
def Obligations.ImeIsNeverReadNorWritten : Prop :=
  (∀ (s t : State), step s = .next t → t.ime = s.ime) ∧
  (∀ (s : State) (v : Bool), step { s with ime := v } = mapNext (fun t => { t with ime := v }) (step s)) ∧
  ∀ s : State, Reachable s → s.ime = false

/-- No rule but the counter's own reads the counter: a run with another count is the same run with the count shifted (R173). -/
def Obligations.CounterInfluencesNothing : Prop :=
  ∀ (s : State) (n k : Nat),
    run k { s with cycleCount := s.cycleCount + n } =
      mapNext (fun t => { t with cycleCount := t.cycleCount + n }) (run k s)

/-- Each non-faulting step adds its entry of the CYCLES table, which is positive: the counter strictly increases (R21, R77, R178;
the numbers are free, assumption log 4). -/
def Obligations.CounterStrictlyIncreases : Prop :=
  ∀ s t : State, step s = .next t → t.cycleCount = s.cycleCount + stepCost s ∧ s.cycleCount < t.cycleCount

/-- The counter after a run is the sum of the entries of the steps taken, and every step adds at least one (R178). -/
def Obligations.CounterIsTheSumOfTheCosts : Prop :=
  ∀ (k : Nat) (s t : State), run k s = .next t → t.cycleCount = s.cycleCount + runCost k s ∧ s.cycleCount + k ≤ t.cycleCount

/-- The free cost table ranges over exactly the tables R177 allows: the model rules none out and lets no other in
(D8, assumption log 4). -/
def Obligations.CycleTablesAreExactlyTheAllowedOnes : Prop :=
  ∀ table : CycleEntry → Nat, CyclesOk table ↔ ∃ choice, cycleTable choice = table

/-- The bus accesses of a step are those of R39, in that order, and no others; none in a halted step; one read in a step that
faults (20_memory.md section 5; the order of stack accesses is D16, assumption log 16). -/
def Obligations.BusAccessesFollowTheTable : Prop :=
  (∀ s t : State, s.Running → step s = .next t →
    t.busLog.map accessShape = accessTable s.pc s.sp (hl s) s.beginStep.fetchInstr.1.form) ∧
  (∀ s t : State, s.halted = true → step s = .next t → t.busLog = []) ∧
  ∀ s : State, s.atFault.busLog.map accessShape = [.r s.pc]

/-- A step depends on the bus only through the bytes its reads return, and acts on it only through the accesses it records: the bus
answered each read as recorded and afterwards is the bus those accesses leave; and on another bus, of whatever parts, that answers
the same accesses with the same bytes the step is the same, with the same accesses (20_memory.md, R37 (c) and R43; `busLog` is the
model's own, assumption log 5). -/
def Obligations.StepDependsOnlyOnTheBytesItReads : Prop :=
  ∀ s t : State, step s = .next t →
    s.bus.answers t.busLog ∧ t.bus = s.bus.after t.busLog ∧
    ∀ b : Bus, b.answers t.busLog → step { s with bus := b } = .next { t with bus := b.after t.busLog }

/-- A byte of memory changes in a step only if the step wrote to its address and RAM answers there, and then holds the value
written; ROM ignores writes; the devices see exactly the accesses at their addresses, in order (20_memory.md, R37 and R43; on the
model's bus, assumption log 3). -/
def Obligations.OnlyBusWritesChangeMemory : Prop :=
  ∀ s t : State, s.bus.mem.wf = true → step s = .next t →
    (∀ a, (∀ v, BusAccess.write a v ∉ t.busLog) → t.bus.mem.read a = s.bus.mem.read a) ∧
    (∀ a v, BusAccess.write a v ∈ t.busLog → s.bus.part a = .ram → t.bus.mem.read a = v ∧ t.bus.peek a = v) ∧
    (∀ a, s.bus.part a ≠ .ram → t.bus.mem.read a = s.bus.mem.read a) ∧
    t.bus.map = s.bus.map ∧ t.bus.deviceLog = s.bus.deviceLog ++ t.busLog.filter (atDevice s.bus)

/-- A store to the byte that comes next, where RAM answers, is what the next step fetches, with no fence (20_memory.md, R38; on
the model's bus, assumption log 3). -/
def Obligations.StoreIsSeenByTheNextFetch : Prop :=
  ∀ (s : State) (src : Reg8), s.Running → s.bus.mem.wf = true → s.bus.part (s.pc + 1#16) = .ram →
    s.bus.peek s.pc = BitVec.ofNat 8 (0x70 + src.index) → hl s = s.pc + 1#16 →
    ∃ t, step s = .next t ∧ t.pc = s.pc + 1#16 ∧ t.beginStep.fetchInstr.1.opcode = s.reg src

/-- A run ends in one way only: a run that reaches the halted state never faults (70_reset_and_hazards.md, R180; D28). -/
def Obligations.HaltedRunsNeverFault : Prop :=
  ∀ s : State, EndsHalted s → ∀ r, ¬ EndsFaulted s r

/-! ### Shared operations -/

/-- The flag write (R15): all four bits from the arguments, low nibble zero, nothing else changed; each flag reads back. -/
def Obligations.SetFlagsWritesAllFour : Prop :=
  ∀ (s : State) (z n h c : Bool),
    s.setFlags z n h c = { s with f := flagsValue z n h c } ∧
    (s.setFlags z n h c).flag .z = z ∧ (s.setFlags z n h c).flag .n = n ∧
    (s.setFlags z n h c).flag .h = h ∧ (s.setFlags z n h c).flag .c = c

/-- The register model's single-flag set and clear touch one flag and keep the others and the low nibble (10_state.md R15, C5;
assumption log 24). -/
def Obligations.SingleFlagOperations : Prop :=
  ∀ (s : State) (k k' : Flag),
    (s.setFlag k).flag k' = (decide (k' = k) || s.flag k') ∧
    (s.clearFlag k).flag k' = (!decide (k' = k) && s.flag k') ∧
    (s.setFlag k).f.extractLsb' 0 4 = s.f.extractLsb' 0 4 ∧ (s.clearFlag k).f.extractLsb' 0 4 = s.f.extractLsb' 0 4 ∧
    s.setFlag k = { s with f := (s.setFlag k).f } ∧ s.clearFlag k = { s with f := (s.clearFlag k).f }

/-- Pairs are views: high register first, and a pair write writes both registers and nothing else (10_state.md, R11); a write of
AF clears the low nibble of F (D25, assumption log 20). -/
def Obligations.PairsAreViews : Prop :=
  ∀ (s : State) (v : Word),
    (s.pair .af).toNat = 256 * s.a.toNat + s.f.toNat ∧ (s.pair .bc).toNat = 256 * s.b.toNat + s.c.toNat ∧
    (s.pair .de).toNat = 256 * s.d.toNat + s.e.toNat ∧ (s.pair .hl).toNat = 256 * s.h.toNat + s.l.toNat ∧
    (s.setPair .bc v).pair .bc = v ∧ (s.setPair .de v).pair .de = v ∧ (s.setPair .hl v).pair .hl = v ∧
    (s.setPair .af v).pair .af = v &&& 0xFFF0#16 ∧
    s.setPair .bc v = { s with b := (s.setPair .bc v).b, c := (s.setPair .bc v).c } ∧
    s.setPair .de v = { s with d := (s.setPair .de v).d, e := (s.setPair .de v).e } ∧
    s.setPair .hl v = { s with h := (s.setPair .hl v).h, l := (s.setPair .hl v).l } ∧
    s.setPair .af v = { s with a := (s.setPair .af v).a, f := (s.setPair .af v).f }

/-- A 16-bit operand is fetched low byte first, from pc and pc + 1 modulo 65536, pc up by two; JP and CALL take it so (R76). -/
def Obligations.SixteenBitOperandIsLittleEndian : Prop :=
  (∀ s : State, s.fetch16.1.toNat =
      (s.bus.read s.pc).1.toNat + 256 * ((s.bus.read s.pc).2.read (s.pc + 1#16)).1.toNat ∧
    s.fetch16.2.pc = s.pc + 2#16) ∧
  ∀ s : State,
    (s.bus.peek s.pc = 0xC3#8 → s.fetchInstr = (.jpA16 s.fetch8.2.fetch16.1, s.fetch8.2.fetch16.2)) ∧
    (s.bus.peek s.pc = 0xCD#8 → s.fetchInstr = (.callA16 s.fetch8.2.fetch16.1, s.fetch8.2.fetch16.2))

/-- A word pushed is the word popped, and sp comes back, at every sp, the wrap at either end included, where RAM answers at the two
stack addresses (40_dispatch.md section 5; D15 and D16, assumption logs 15 and 16). That the word reads back rests on the
model's bus (DESIGN CHOICE, assumption log 3; D17). -/
def Obligations.PopUndoesPush : Prop :=
  ∀ (s : State) (w : Word), s.bus.mem.wf = true →
    s.bus.part (s.sp - 2#16) = .ram → s.bus.part (s.sp - 1#16) = .ram →
    (s.push16 w).pop16.1 = w ∧ (s.push16 w).pop16.2.sp = s.sp

/-- The state dump gives the six words and does not depend on `halted`, `ime` or the counter (60_exceptions.md, R163; D20,
assumption log 24). -/
def Obligations.DumpShowsTheSixWords : Prop :=
  ∀ (s : State) (x y : Bool) (n : Nat),
    s.dump.pc = s.pc ∧ s.dump.sp = s.sp ∧ s.dump.af.toNat = 256 * s.a.toNat + s.f.toNat ∧
    s.dump.bc.toNat = 256 * s.b.toNat + s.c.toNat ∧ s.dump.de.toNat = 256 * s.d.toNat + s.e.toNat ∧
    s.dump.hl.toNat = 256 * s.h.toNat + s.l.toNat ∧
    { s with halted := x, ime := y, cycleCount := n }.dump = s.dump

/-! ### The bus -/

/-- The buses of R43 (20_memory.md, R31 and R43; DESIGN CHOICE, assumption log 3; D17). With no window it is the reference bus: a
read returns `mem[a]` and has no side effect, a write replaces `mem[a]` and no other byte. Where ROM answers, a write changes
nothing. Where a device answers, no access changes a byte of memory, and the device sees each. The device part leaves no bus out:
what any bus answers, be it any machine with a state of its own, is some function of the accesses before and of the address; and
a device in the whole address space answers by such a function, of which nothing is known. -/
def Obligations.BusPartsMeetTheContract : Prop :=
  (∀ (m : Memory) (a : Word) (v : Byte), m.wf = true →
    (Bus.flat m).read a = (m.read a, Bus.flat m) ∧ (Bus.flat m).write a v = Bus.flat (m.write a v) ∧
    ∀ a', ((Bus.flat m).write a v).peek a' = if a' = a then v else m.read a') ∧
  (∀ (b : Bus) (a : Word) (v : Byte),
    (b.part a = .rom → b.write a v = b ∧ b.read a = (b.mem.read a, b)) ∧
    (b.isDevice a = true →
      (b.read a).2 = { b with deviceLog := b.deviceLog ++ [.read a (b.read a).1] } ∧
      b.write a v = { b with deviceLog := b.deviceLog ++ [.write a v] })) ∧
  (∀ (σ : Type) (read : σ → Word → Byte × σ) (write : σ → Word → Byte → σ) (x : σ),
    ∃ f : List BusAccess → Word → Byte, ∀ log, machineAnswers read write x log ↔ answersByHistory f [] log) ∧
  ∀ (b : Bus) (unit : Nat) (log : List BusAccess), b.map = [⟨0x0000#16, 65536, .device unit⟩] →
    (b.answers log ↔ answersByHistory (Config.deviceByte unit) b.deviceLog log)

/-! ### The model's own conventions -/

/-- Memories in canonical form that read alike at every address are equal (assumption log 2: the model's form of
memory). -/
def Obligations.EqualReadsMeanEqualMemories : Prop :=
  ∀ m m' : Memory, m.wf = true → m'.wf = true → (∀ a : Word, m.read a = m'.read a) → m = m'

/-- The bus owner's load puts each byte of memory in its place, wrapping at the top (R44, R174; assumption log 18). -/
def Obligations.LoadImagePlacesTheBytes : Prop :=
  ∀ (s : State) (base : Word) (bytes : List Byte), s.bus.mem.wf = true → bytes.length ≤ 65536 →
    ∀ (k : Nat) (v : Byte), bytes[k]? = some v →
      (s.loadImage base bytes).bus.mem.read (base + BitVec.ofNat 16 k) = v

/-- A word of the opcode table placed by `withFetchWord` is what the next step runs, whatever the bus (assumption log 18). -/
def Obligations.PlacedWordIsRunNext : Prop :=
  ∀ (s : State) (nbits w : Nat) (i : Instr), s.bus.mem.wf = true → decodeTableWord nbits w = some i →
    ∃ u, step (s.withFetchWord nbits w) = exec i u ∧ u.pc = s.pc + BitVec.ofNat 16 i.length ∧ u.sp = s.sp ∧
      (∀ r, u.reg r = s.reg r) ∧ u.f = s.f
end

