-- ==== Sys2Proof/Laws/Memory.lean ====
section
/-! SUPPORT. The laws of memory (R37, R43): a read after a write, and the canonical form. -/

namespace Sys2Proof.Machine.Memory

@[simp] theorem wf_nil : Memory.wf [] = true := rfl

theorem wf_cons {k : Nat} {v : Byte} {m : Memory} :
    Memory.wf ((k, v) :: m) = true ↔ k < 65536 ∧ v ≠ unwrittenByte ∧ (∀ c ∈ m, k < c.1) ∧ m.wf = true := by
  simp [Memory.wf, and_assoc]

@[simp] theorem readAt_nil (a : Nat) : Memory.readAt [] a = unwrittenByte := rfl

theorem readAt_cons (k : Nat) (v : Byte) (m : Memory) (a : Nat) :
    Memory.readAt ((k, v) :: m) a = if a = k then v else m.readAt a := rfl

/-- An address that no cell lists reads as the unwritten byte. -/
theorem readAt_of_unlisted {m : Memory} {a : Nat} (h : ∀ c ∈ m, a ≠ c.1) : m.readAt a = unwrittenByte := by
  induction m with
  | nil => rfl
  | cons c m ih =>
    obtain ⟨k, v⟩ := c
    rw [readAt_cons, if_neg (h (k, v) (by simp))]
    exact ih fun c hc => h c (by simp [hc])

theorem readAt_of_lt_all {m : Memory} {a : Nat} (h : ∀ c ∈ m, a < c.1) : m.readAt a = unwrittenByte :=
  readAt_of_unlisted fun c hc => Nat.ne_of_lt (h c hc)

theorem readAt_writeAt_of_ne {m : Memory} {a a' : Nat} (v : Byte) (h : a' ≠ a) :
    (m.writeAt a v).readAt a' = m.readAt a' := by
  induction m with
  | nil => by_cases hv : v = unwrittenByte <;> simp [Memory.writeAt, hv, readAt_cons, h]
  | cons c m ih =>
    obtain ⟨k, w⟩ := c
    simp only [Memory.writeAt]
    split
    · split <;> simp [readAt_cons, h]
    · split
      · next hk => subst hk; split <;> simp [readAt_cons, h]
      · simp [readAt_cons, ih]

theorem readAt_writeAt_same {m : Memory} {a : Nat} (v : Byte) (hm : m.wf = true) :
    (m.writeAt a v).readAt a = v := by
  induction m with
  | nil => by_cases hv : v = unwrittenByte <;> simp [Memory.writeAt, hv, readAt_cons]
  | cons c m ih =>
    obtain ⟨k, w⟩ := c
    obtain ⟨-, -, hall, hwf⟩ := wf_cons.1 hm
    simp only [Memory.writeAt]
    split
    · next hlt =>
      split
      · next hv =>
        rw [readAt_cons, if_neg (Nat.ne_of_lt hlt), hv]
        exact readAt_of_lt_all fun c hc => Nat.lt_trans hlt (hall c hc)
      · simp [readAt_cons]
    · split
      · next hk =>
        subst hk
        split
        · next hv => rw [hv]; exact readAt_of_lt_all hall
        · simp [readAt_cons]
      · next hk => simp [readAt_cons, hk, ih hwf]

theorem mem_writeAt {m : Memory} {a : Nat} {v : Byte} {c : Host.Cell} (h : c ∈ m.writeAt a v) : c = (a, v) ∨ c ∈ m := by
  induction m with
  | nil =>
    by_cases hv : v = unwrittenByte <;> simp [Memory.writeAt, hv] at h
    exact .inl h
  | cons d m ih =>
    obtain ⟨k, w⟩ := d
    simp only [Memory.writeAt] at h
    split at h
    · split at h
      · exact .inr h
      · simpa using h
    · split at h
      · split at h
        · exact .inr (by simp [h])
        · rcases List.mem_cons.1 h with h | h
          · exact .inl h
          · exact .inr (by simp [h])
      · rcases List.mem_cons.1 h with h | h
        · exact .inr (by simp [h])
        · rcases ih h with h | h
          · exact .inl h
          · exact .inr (by simp [h])

theorem writeAt_wf {m : Memory} {a : Nat} (v : Byte) (ha : a < 65536) (hm : m.wf = true) : (m.writeAt a v).wf = true := by
  induction m with
  | nil => by_cases hv : v = unwrittenByte <;> simp [Memory.writeAt, hv, Memory.wf, ha]
  | cons c m ih =>
    obtain ⟨k, w⟩ := c
    obtain ⟨hk, hw, hall, hwf⟩ := wf_cons.1 hm
    simp only [Memory.writeAt]
    split
    · next hlt =>
      split
      · exact hm
      · next hv =>
        refine wf_cons.2 ⟨ha, hv, fun c hc => ?_, hm⟩
        rcases List.mem_cons.1 hc with rfl | hc
        · exact hlt
        · exact Nat.lt_trans hlt (hall c hc)
    · next hnlt =>
      split
      · next heq =>
        subst heq
        split
        · exact hwf
        · next hv => exact wf_cons.2 ⟨ha, hv, hall, hwf⟩
      · next hne =>
        refine wf_cons.2 ⟨hk, hw, fun c hc => ?_, ih hwf⟩
        rcases mem_writeAt hc with rfl | hc
        · show k < a
          omega
        · exact hall c hc

/-- A write to an address is what the next read of it gives (R37). -/
theorem read_write_same {m : Memory} (hm : m.wf = true) (a : Word) (v : Byte) : (m.write a v).read a = v :=
  readAt_writeAt_same v hm

/-- A write leaves every other address alone (R30, R37). -/
theorem read_write_of_ne (m : Memory) {a a' : Word} (v : Byte) (h : a' ≠ a) : (m.write a v).read a' = m.read a' :=
  readAt_writeAt_of_ne v fun e => h (BitVec.eq_of_toNat_eq e)

theorem read_write {m : Memory} (hm : m.wf = true) (a a' : Word) (v : Byte) :
    (m.write a v).read a' = if a' = a then v else m.read a' := by
  split
  · next h => rw [h]; exact read_write_same hm a v
  · next h => exact read_write_of_ne m v h

/-- A write keeps the canonical form. -/
theorem write_wf {m : Memory} (hm : m.wf = true) (a : Word) (v : Byte) : (m.write a v).wf = true :=
  writeAt_wf v a.isLt hm

end Sys2Proof.Machine.Memory
end

