-- ==== Sys2Proof/Laws/Bus.lean ====
section
/-! SUPPORT. The laws of the bus (R31, R37, R43): what an access of each part returns and leaves. -/

namespace Sys2Proof.Machine.Bus

variable (b : Bus)

@[simp] theorem read_fst (a : Word) : (b.read a).1 = b.peek a := rfl

@[simp] theorem note_map (a : Word) (x : BusAccess) : (b.note a x).map = b.map := by unfold note; split <;> rfl

@[simp] theorem note_mem (a : Word) (x : BusAccess) : (b.note a x).mem = b.mem := by unfold note; split <;> rfl

theorem note_deviceLog (a : Word) (x : BusAccess) :
    (b.note a x).deviceLog = if b.isDevice a then b.deviceLog ++ [x] else b.deviceLog := by unfold note; split <;> rfl

@[simp] theorem read_map (a : Word) : (b.read a).2.map = b.map := note_map ..

@[simp] theorem read_mem (a : Word) : (b.read a).2.mem = b.mem := note_mem ..

@[simp] theorem write_map (a : Word) (v : Byte) : (b.write a v).map = b.map := by unfold write; split <;> simp

/-- A write changes the bytes of memory at RAM alone. -/
theorem write_mem (a : Word) (v : Byte) : (b.write a v).mem = if b.part a = .ram then b.mem.write a v else b.mem := by
  unfold write; split <;> simp_all

theorem write_deviceLog (a : Word) (v : Byte) :
    (b.write a v).deviceLog = if b.isDevice a then b.deviceLog ++ [.write a v] else b.deviceLog := by
  unfold write; split <;> simp_all [note_deviceLog, isDevice]

@[simp] theorem part_read (a a' : Word) : (b.read a).2.part a' = b.part a' := by simp [part]

@[simp] theorem part_write (a : Word) (v : Byte) (a' : Word) : (b.write a v).part a' = b.part a' := by simp [part]

@[simp] theorem isDevice_read (a a' : Word) : (b.read a).2.isDevice a' = b.isDevice a' := by simp [isDevice]

@[simp] theorem isDevice_write (a : Word) (v : Byte) (a' : Word) : (b.write a v).isDevice a' = b.isDevice a' := by
  simp [isDevice]

variable {b}

theorem not_isDevice_of_ram {a : Word} (h : b.part a = .ram) : b.isDevice a = false := by simp [isDevice, h]

/-- Where memory answers, a read returns the byte it holds. -/
theorem peek_of_memory {a : Word} (h : b.isDevice a = false) : b.peek a = b.mem.read a := by
  unfold isDevice at h; unfold peek; split <;> simp_all

/-- A read of memory has no side effect (R43). -/
theorem read_of_memory {a : Word} (h : b.isDevice a = false) : b.read a = (b.mem.read a, b) := by
  simp [read, note, h, peek_of_memory h]

/-- RAM returns what was written (R37). -/
theorem peek_write_same {a : Word} (v : Byte) (hw : b.mem.wf = true) (h : b.part a = .ram) : (b.write a v).peek a = v := by
  rw [peek_of_memory (by simp [not_isDevice_of_ram h]), write_mem, if_pos h, Memory.read_write_same hw]

theorem write_mem_read_of_ne {a a' : Word} (v : Byte) (h : a' ≠ a) : (b.write a v).mem.read a' = b.mem.read a' := by
  rw [write_mem]; split
  · exact Memory.read_write_of_ne _ _ h
  · rfl

/-- A write leaves every other memory address alone (R37). -/
theorem peek_write_of_ne {a a' : Word} (v : Byte) (hd : b.isDevice a' = false) (h : a' ≠ a) :
    (b.write a v).peek a' = b.peek a' := by
  rw [peek_of_memory (by simpa using hd), peek_of_memory hd, write_mem_read_of_ne v h]

/-- A read leaves every memory address alone. -/
theorem peek_read_of_memory {a a' : Word} (hd : b.isDevice a' = false) : (b.read a).2.peek a' = b.peek a' := by
  rw [peek_of_memory (by simpa using hd), peek_of_memory hd, read_mem]

/-- A write keeps the canonical form. -/
theorem write_wf (hw : b.mem.wf = true) (a : Word) (v : Byte) : (b.write a v).mem.wf = true := by
  rw [write_mem]; split
  · exact Memory.write_wf hw a v
  · exact hw

@[simp] theorem after_nil (b : Bus) : b.after [] = b := rfl

@[simp] theorem after_read (b : Bus) (a : Word) (v : Byte) (rest : List BusAccess) :
    b.after (.read a v :: rest) = (b.read a).2.after rest := rfl

@[simp] theorem after_write (b : Bus) (a : Word) (v : Byte) (rest : List BusAccess) :
    b.after (.write a v :: rest) = (b.write a v).after rest := rfl

/-- The map and the canonical form outlive any accesses. -/
theorem after_map (log : List BusAccess) : (b.after log).map = b.map := by
  induction log generalizing b with
  | nil => rfl
  | cons x rest ih => cases x <;> simp [after, ih]

theorem after_wf (hw : b.mem.wf = true) (log : List BusAccess) : (b.after log).mem.wf = true := by
  induction log generalizing b with
  | nil => exact hw
  | cons x rest ih =>
    cases x with
    | read a v => exact ih (by simpa using hw)
    | write a v => exact ih (write_wf hw a v)

theorem after_append (b : Bus) (l l' : List BusAccess) : b.after (l ++ l') = (b.after l).after l' := by
  induction l generalizing b with
  | nil => rfl
  | cons x rest ih => cases x <;> exact ih _

theorem answers_append (b : Bus) (l l' : List BusAccess) : b.answers (l ++ l') ↔ b.answers l ∧ (b.after l).answers l' := by
  induction l generalizing b with
  | nil => simp [answers, after]
  | cons x rest ih => cases x <;> simp [answers, after, ih, and_assoc]

/-- A bus answers its own reads. -/
theorem answers_readsFrom (b : Bus) (a : Word) (k : Nat) : b.answers (b.readsFrom a k) := by
  induction k generalizing b a with
  | zero => trivial
  | succ k ih => exact ⟨rfl, ih _ _⟩

end Sys2Proof.Machine.Bus
end

