-- ==== Sys2Proof/Laws/Flags.lean ====
section
/-! SUPPORT. What the flag write and the ALU write-back do. -/

namespace Sys2Proof.Machine

/-- Each flag of a written F is the argument in its place (R13, R15). -/
theorem flagsByte_bits (z n h c : Bool) :
    (flagsByte z n h c).getLsbD 7 = z ∧ (flagsByte z n h c).getLsbD 6 = n ∧
    (flagsByte z n h c).getLsbD 5 = h ∧ (flagsByte z n h c).getLsbD 4 = c := by
  cases z <;> cases n <;> cases h <;> cases c <;> decide

/-- The low nibble of a written F is zero (R14). -/
theorem flagsByte_lowNibble (z n h c : Bool) : (flagsByte z n h c).extractLsb' 0 4 = 0#4 := by
  cases z <;> cases n <;> cases h <;> cases c <;> decide

/-- The low nibble of a byte is its value modulo 16. -/
theorem lowNibble_eq_mod (v : Byte) : lowNibble v = v.toNat % 16 := by
  have : v.toNat &&& 15 = v.toNat % 16 := Nat.and_two_pow_sub_one_eq_mod v.toNat 4
  simpa [lowNibble] using this

/-- Everything an ALU write-back changes: A (never for CP), F and the counter. -/
theorem State.aluWriteBack_eq (s : State) (op : AluOp) (v : Byte) (e : CycleEntry) :
    s.aluWriteBack op v e =
      { s with
        a := if writesA op then (aluCompute op s.a v (s.flag .c)).res else s.a
        f := flagsByte (aluCompute op s.a v (s.flag .c)).z (aluCompute op s.a v (s.flag .c)).n
          (aluCompute op s.a v (s.flag .c)).h (aluCompute op s.a v (s.flag .c)).c
        cycleCount := s.cycleCount + cycleCost e } := by
  cases op <;> rfl

end Sys2Proof.Machine
end

