-- ==== Sys2Proof/Laws/State.lean ====
section
/-! SUPPORT. One lemma per field per update of the state, and what register access does. -/

namespace Sys2Proof.Machine.State

variable (s : State)

/-! `setPc` -/

@[simp] theorem setPc_a (w : Word) : (s.setPc w).a = s.a := rfl
@[simp] theorem setPc_f (w : Word) : (s.setPc w).f = s.f := rfl
@[simp] theorem setPc_b (w : Word) : (s.setPc w).b = s.b := rfl
@[simp] theorem setPc_c (w : Word) : (s.setPc w).c = s.c := rfl
@[simp] theorem setPc_d (w : Word) : (s.setPc w).d = s.d := rfl
@[simp] theorem setPc_e (w : Word) : (s.setPc w).e = s.e := rfl
@[simp] theorem setPc_h (w : Word) : (s.setPc w).h = s.h := rfl
@[simp] theorem setPc_l (w : Word) : (s.setPc w).l = s.l := rfl
@[simp] theorem setPc_sp (w : Word) : (s.setPc w).sp = s.sp := rfl
@[simp] theorem setPc_pc (w : Word) : (s.setPc w).pc = w := rfl
@[simp] theorem setPc_halted (w : Word) : (s.setPc w).halted = s.halted := rfl
@[simp] theorem setPc_ime (w : Word) : (s.setPc w).ime = s.ime := rfl
@[simp] theorem setPc_cycleCount (w : Word) : (s.setPc w).cycleCount = s.cycleCount := rfl
@[simp] theorem setPc_bus (w : Word) : (s.setPc w).bus = s.bus := rfl
@[simp] theorem setPc_busLog (w : Word) : (s.setPc w).busLog = s.busLog := rfl
@[simp] theorem setPc_initialised (w : Word) : (s.setPc w).initialised = s.initialised := rfl
@[simp] theorem setPc_reg (w : Word) (r : Reg8) : (s.setPc w).reg r = s.reg r := by cases r <;> rfl

/-! `setSp` -/

@[simp] theorem setSp_a (w : Word) : (s.setSp w).a = s.a := rfl
@[simp] theorem setSp_f (w : Word) : (s.setSp w).f = s.f := rfl
@[simp] theorem setSp_b (w : Word) : (s.setSp w).b = s.b := rfl
@[simp] theorem setSp_c (w : Word) : (s.setSp w).c = s.c := rfl
@[simp] theorem setSp_d (w : Word) : (s.setSp w).d = s.d := rfl
@[simp] theorem setSp_e (w : Word) : (s.setSp w).e = s.e := rfl
@[simp] theorem setSp_h (w : Word) : (s.setSp w).h = s.h := rfl
@[simp] theorem setSp_l (w : Word) : (s.setSp w).l = s.l := rfl
@[simp] theorem setSp_sp (w : Word) : (s.setSp w).sp = w := rfl
@[simp] theorem setSp_pc (w : Word) : (s.setSp w).pc = s.pc := rfl
@[simp] theorem setSp_halted (w : Word) : (s.setSp w).halted = s.halted := rfl
@[simp] theorem setSp_ime (w : Word) : (s.setSp w).ime = s.ime := rfl
@[simp] theorem setSp_cycleCount (w : Word) : (s.setSp w).cycleCount = s.cycleCount := rfl
@[simp] theorem setSp_bus (w : Word) : (s.setSp w).bus = s.bus := rfl
@[simp] theorem setSp_busLog (w : Word) : (s.setSp w).busLog = s.busLog := rfl
@[simp] theorem setSp_initialised (w : Word) : (s.setSp w).initialised = s.initialised := rfl
@[simp] theorem setSp_reg (w : Word) (r : Reg8) : (s.setSp w).reg r = s.reg r := by cases r <;> rfl

/-! `setFlags` -/

@[simp] theorem setFlags_a (z n h c : Bool) : (s.setFlags z n h c).a = s.a := rfl
@[simp] theorem setFlags_f (z n h c : Bool) : (s.setFlags z n h c).f = flagsByte z n h c := rfl
@[simp] theorem setFlags_b (z n h c : Bool) : (s.setFlags z n h c).b = s.b := rfl
@[simp] theorem setFlags_c (z n h c : Bool) : (s.setFlags z n h c).c = s.c := rfl
@[simp] theorem setFlags_d (z n h c : Bool) : (s.setFlags z n h c).d = s.d := rfl
@[simp] theorem setFlags_e (z n h c : Bool) : (s.setFlags z n h c).e = s.e := rfl
@[simp] theorem setFlags_h (z n h c : Bool) : (s.setFlags z n h c).h = s.h := rfl
@[simp] theorem setFlags_l (z n h c : Bool) : (s.setFlags z n h c).l = s.l := rfl
@[simp] theorem setFlags_sp (z n h c : Bool) : (s.setFlags z n h c).sp = s.sp := rfl
@[simp] theorem setFlags_pc (z n h c : Bool) : (s.setFlags z n h c).pc = s.pc := rfl
@[simp] theorem setFlags_halted (z n h c : Bool) : (s.setFlags z n h c).halted = s.halted := rfl
@[simp] theorem setFlags_ime (z n h c : Bool) : (s.setFlags z n h c).ime = s.ime := rfl
@[simp] theorem setFlags_cycleCount (z n h c : Bool) : (s.setFlags z n h c).cycleCount = s.cycleCount := rfl
@[simp] theorem setFlags_bus (z n h c : Bool) : (s.setFlags z n h c).bus = s.bus := rfl
@[simp] theorem setFlags_busLog (z n h c : Bool) : (s.setFlags z n h c).busLog = s.busLog := rfl
@[simp] theorem setFlags_initialised (z n h c : Bool) : (s.setFlags z n h c).initialised = s.initialised := rfl
@[simp] theorem setFlags_reg (z n h c : Bool) (r : Reg8) : (s.setFlags z n h c).reg r = s.reg r := by cases r <;> rfl

/-! `tick` -/

@[simp] theorem tick_a (x : CycleEntry) : (s.tick x).a = s.a := rfl
@[simp] theorem tick_f (x : CycleEntry) : (s.tick x).f = s.f := rfl
@[simp] theorem tick_b (x : CycleEntry) : (s.tick x).b = s.b := rfl
@[simp] theorem tick_c (x : CycleEntry) : (s.tick x).c = s.c := rfl
@[simp] theorem tick_d (x : CycleEntry) : (s.tick x).d = s.d := rfl
@[simp] theorem tick_e (x : CycleEntry) : (s.tick x).e = s.e := rfl
@[simp] theorem tick_h (x : CycleEntry) : (s.tick x).h = s.h := rfl
@[simp] theorem tick_l (x : CycleEntry) : (s.tick x).l = s.l := rfl
@[simp] theorem tick_sp (x : CycleEntry) : (s.tick x).sp = s.sp := rfl
@[simp] theorem tick_pc (x : CycleEntry) : (s.tick x).pc = s.pc := rfl
@[simp] theorem tick_halted (x : CycleEntry) : (s.tick x).halted = s.halted := rfl
@[simp] theorem tick_ime (x : CycleEntry) : (s.tick x).ime = s.ime := rfl
@[simp] theorem tick_cycleCount (x : CycleEntry) : (s.tick x).cycleCount = s.cycleCount + cycleCost x := rfl
@[simp] theorem tick_bus (x : CycleEntry) : (s.tick x).bus = s.bus := rfl
@[simp] theorem tick_busLog (x : CycleEntry) : (s.tick x).busLog = s.busLog := rfl
@[simp] theorem tick_initialised (x : CycleEntry) : (s.tick x).initialised = s.initialised := rfl
@[simp] theorem tick_reg (x : CycleEntry) (r : Reg8) : (s.tick x).reg r = s.reg r := by cases r <;> rfl

/-! `beginStep` -/

@[simp] theorem beginStep_a : (s.beginStep).a = s.a := rfl
@[simp] theorem beginStep_f : (s.beginStep).f = s.f := rfl
@[simp] theorem beginStep_b : (s.beginStep).b = s.b := rfl
@[simp] theorem beginStep_c : (s.beginStep).c = s.c := rfl
@[simp] theorem beginStep_d : (s.beginStep).d = s.d := rfl
@[simp] theorem beginStep_e : (s.beginStep).e = s.e := rfl
@[simp] theorem beginStep_h : (s.beginStep).h = s.h := rfl
@[simp] theorem beginStep_l : (s.beginStep).l = s.l := rfl
@[simp] theorem beginStep_sp : (s.beginStep).sp = s.sp := rfl
@[simp] theorem beginStep_pc : (s.beginStep).pc = s.pc := rfl
@[simp] theorem beginStep_halted : (s.beginStep).halted = s.halted := rfl
@[simp] theorem beginStep_ime : (s.beginStep).ime = s.ime := rfl
@[simp] theorem beginStep_cycleCount : (s.beginStep).cycleCount = s.cycleCount := rfl
@[simp] theorem beginStep_bus : (s.beginStep).bus = s.bus := rfl
@[simp] theorem beginStep_busLog : (s.beginStep).busLog = [] := rfl
@[simp] theorem beginStep_initialised : (s.beginStep).initialised = s.initialised := rfl
@[simp] theorem beginStep_reg (r : Reg8) : (s.beginStep).reg r = s.reg r := by cases r <;> rfl

/-! `busRead` -/

@[simp] theorem busRead_a (a : Word) : ((s.busRead a).2).a = s.a := rfl
@[simp] theorem busRead_f (a : Word) : ((s.busRead a).2).f = s.f := rfl
@[simp] theorem busRead_b (a : Word) : ((s.busRead a).2).b = s.b := rfl
@[simp] theorem busRead_c (a : Word) : ((s.busRead a).2).c = s.c := rfl
@[simp] theorem busRead_d (a : Word) : ((s.busRead a).2).d = s.d := rfl
@[simp] theorem busRead_e (a : Word) : ((s.busRead a).2).e = s.e := rfl
@[simp] theorem busRead_h (a : Word) : ((s.busRead a).2).h = s.h := rfl
@[simp] theorem busRead_l (a : Word) : ((s.busRead a).2).l = s.l := rfl
@[simp] theorem busRead_sp (a : Word) : ((s.busRead a).2).sp = s.sp := rfl
@[simp] theorem busRead_pc (a : Word) : ((s.busRead a).2).pc = s.pc := rfl
@[simp] theorem busRead_halted (a : Word) : ((s.busRead a).2).halted = s.halted := rfl
@[simp] theorem busRead_ime (a : Word) : ((s.busRead a).2).ime = s.ime := rfl
@[simp] theorem busRead_cycleCount (a : Word) : ((s.busRead a).2).cycleCount = s.cycleCount := rfl
@[simp] theorem busRead_bus (a : Word) : ((s.busRead a).2).bus = (s.bus.read a).2 := rfl
@[simp] theorem busRead_busLog (a : Word) : ((s.busRead a).2).busLog = s.busLog ++ [.read a (s.bus.peek a)] := rfl
@[simp] theorem busRead_initialised (a : Word) : ((s.busRead a).2).initialised = s.initialised := rfl
@[simp] theorem busRead_reg (a : Word) (r : Reg8) : ((s.busRead a).2).reg r = s.reg r := by cases r <;> rfl

/-! `busWrite` -/

@[simp] theorem busWrite_a (a : Word) (v : Byte) : (s.busWrite a v).a = s.a := rfl
@[simp] theorem busWrite_f (a : Word) (v : Byte) : (s.busWrite a v).f = s.f := rfl
@[simp] theorem busWrite_b (a : Word) (v : Byte) : (s.busWrite a v).b = s.b := rfl
@[simp] theorem busWrite_c (a : Word) (v : Byte) : (s.busWrite a v).c = s.c := rfl
@[simp] theorem busWrite_d (a : Word) (v : Byte) : (s.busWrite a v).d = s.d := rfl
@[simp] theorem busWrite_e (a : Word) (v : Byte) : (s.busWrite a v).e = s.e := rfl
@[simp] theorem busWrite_h (a : Word) (v : Byte) : (s.busWrite a v).h = s.h := rfl
@[simp] theorem busWrite_l (a : Word) (v : Byte) : (s.busWrite a v).l = s.l := rfl
@[simp] theorem busWrite_sp (a : Word) (v : Byte) : (s.busWrite a v).sp = s.sp := rfl
@[simp] theorem busWrite_pc (a : Word) (v : Byte) : (s.busWrite a v).pc = s.pc := rfl
@[simp] theorem busWrite_halted (a : Word) (v : Byte) : (s.busWrite a v).halted = s.halted := rfl
@[simp] theorem busWrite_ime (a : Word) (v : Byte) : (s.busWrite a v).ime = s.ime := rfl
@[simp] theorem busWrite_cycleCount (a : Word) (v : Byte) : (s.busWrite a v).cycleCount = s.cycleCount := rfl
@[simp] theorem busWrite_bus (a : Word) (v : Byte) : (s.busWrite a v).bus = s.bus.write a v := rfl
@[simp] theorem busWrite_busLog (a : Word) (v : Byte) : (s.busWrite a v).busLog = s.busLog ++ [.write a v] := rfl
@[simp] theorem busWrite_initialised (a : Word) (v : Byte) : (s.busWrite a v).initialised = s.initialised := rfl
@[simp] theorem busWrite_reg (a : Word) (v : Byte) (r : Reg8) : (s.busWrite a v).reg r = s.reg r := by cases r <;> rfl

/-! `setReg` -/

@[simp] theorem setReg_sp (r : Reg8) (v : Byte) : (s.setReg r v).sp = s.sp := by cases r <;> rfl
@[simp] theorem setReg_pc (r : Reg8) (v : Byte) : (s.setReg r v).pc = s.pc := by cases r <;> rfl
@[simp] theorem setReg_halted (r : Reg8) (v : Byte) : (s.setReg r v).halted = s.halted := by cases r <;> rfl
@[simp] theorem setReg_ime (r : Reg8) (v : Byte) : (s.setReg r v).ime = s.ime := by cases r <;> rfl
@[simp] theorem setReg_cycleCount (r : Reg8) (v : Byte) : (s.setReg r v).cycleCount = s.cycleCount := by cases r <;> rfl
@[simp] theorem setReg_bus (r : Reg8) (v : Byte) : (s.setReg r v).bus = s.bus := by cases r <;> rfl
@[simp] theorem setReg_busLog (r : Reg8) (v : Byte) : (s.setReg r v).busLog = s.busLog := by cases r <;> rfl
@[simp] theorem setReg_initialised (r : Reg8) (v : Byte) : (s.setReg r v).initialised = s.initialised := by cases r <;> rfl
@[simp] theorem setReg_f (r : Reg8) (v : Byte) : (s.setReg r v).f = s.f := by cases r <;> rfl

@[simp] theorem reg_setReg_same (r : Reg8) (v : Byte) : (s.setReg r v).reg r = v := by cases r <;> rfl

theorem reg_setReg_of_ne {r r' : Reg8} (v : Byte) (h : r' ≠ r) : (s.setReg r v).reg r' = s.reg r' := by
  cases r <;> cases r' <;> first | rfl | exact absurd rfl h

/-- Writing back the value a register holds changes nothing (R86). -/
theorem setReg_self (r : Reg8) : s.setReg r (s.reg r) = s := by cases r <;> rfl

@[simp] theorem busRead_fst (a : Word) : (s.busRead a).1 = s.bus.peek a := rfl

@[simp] theorem busRead_flag (a : Word) (k : Flag) : (s.busRead a).2.flag k = s.flag k := rfl

@[simp] theorem hlAddress_def : s.hlAddress = wordOf s.h s.l := rfl

@[simp] theorem readAtHL_fst : s.readAtHL.1 = s.bus.peek s.hlAddress := rfl

theorem readAtHL_snd : s.readAtHL.2 =
    { s with bus := (s.bus.read s.hlAddress).2, busLog := s.busLog ++ [.read s.hlAddress (s.bus.peek s.hlAddress)] } := rfl

theorem writeAtHL_eq (v : Byte) : s.writeAtHL v =
    { s with bus := s.bus.write s.hlAddress v, busLog := s.busLog ++ [.write s.hlAddress v] } := rfl

/-- The bus owner's load changes the bytes of memory alone. -/
theorem loadImage_eq (base : Word) (bytes : List Byte) :
    s.loadImage base bytes = { s with bus := { s.bus with mem := (s.loadImage base bytes).bus.mem } } := by
  induction bytes generalizing s base with
  | nil => rfl
  | cons v rest ih => exact ih { s with bus := { s.bus with mem := s.bus.mem.write base v } } (inc16 base 1)

/-- Putting RAM where a device answers changes the map alone. -/
theorem coverWithMemory_eq (base : Word) (k : Nat) :
    s.coverWithMemory base k = { s with bus := { s.bus with map := (s.coverWithMemory base k).bus.map } } := by
  induction k generalizing s base with
  | zero => rfl
  | succ k ih =>
    simp only [coverWithMemory]
    split
    · exact ih { s with bus := { s.bus with map := ⟨base, 1, .ram⟩ :: s.bus.map } } (inc16 base 1)
    · exact ih s (inc16 base 1)

end Sys2Proof.Machine.State
end

