-- ==== Sys2Proof/Laws/Ops.lean ====
section
/-! SUPPORT. What each shared operation does, said once: operand fetch, the stack, the fetch of an instruction, the step. -/

namespace Sys2Proof.Machine

@[simp] theorem inc16_zero (w : Word) : inc16 w 0 = w := by simp [inc16]

theorem inc16_inc16 (w : Word) (j k : Nat) : inc16 (inc16 w j) k = inc16 w (j + k) := by
  simp [inc16, BitVec.add_assoc, BitVec.ofNat_add]

theorem wordOf_high_low (w : Word) : wordOf (highByte w) (lowByte w) = w := by
  apply BitVec.eq_of_getLsbD_eq
  intro i hi
  simp only [wordOf, highByte, lowByte, BitVec.getLsbD_append, BitVec.getLsbD_extractLsb']
  by_cases h : i < 8
  · simp [h]
  · have : i - 8 < 8 := by omega
    simp [h, this, show 8 + (i - 8) = i by omega]

theorem highByte_wordOf (hi lo : Byte) : highByte (wordOf hi lo) = hi := by
  apply BitVec.eq_of_getLsbD_eq
  intro i h
  simp only [wordOf, highByte, BitVec.getLsbD_append, BitVec.getLsbD_extractLsb']
  simp [h]

theorem lowByte_wordOf (hi lo : Byte) : lowByte (wordOf hi lo) = lo := by
  apply BitVec.eq_of_getLsbD_eq
  intro i h
  simp only [wordOf, lowByte, BitVec.getLsbD_append, BitVec.getLsbD_extractLsb']
  simp [h]

namespace State

/-- `fetch8`: the byte at pc, one access, pc up by one (R75). -/
theorem fetch8_eq (s : State) : s.fetch8 =
    (s.bus.peek s.pc,
     { s with pc := inc16 s.pc 1, bus := (s.bus.read s.pc).2, busLog := s.busLog ++ [.read s.pc (s.bus.peek s.pc)] }) := rfl

/-- The state after the `k` bytes from pc on are fetched. -/
def afterFetch (s : State) (k : Nat) : State :=
  { s with
    pc := inc16 s.pc k
    bus := s.bus.after (s.bus.readsFrom s.pc k)
    busLog := s.busLog ++ s.bus.readsFrom s.pc k }

/-- `fetch16`: the bytes at pc and pc + 1, low byte first, pc up by two (R76). -/
theorem fetch16_eq (s : State) : s.fetch16 =
    (wordOf ((s.bus.read s.pc).2.peek (inc16 s.pc 1)) (s.bus.peek s.pc), s.afterFetch 2) := by
  simp [fetch16, fetch8_eq, inc16_inc16, afterFetch, Bus.after, Bus.readsFrom]
  simp [inc16]

/-- `push16`: sp down by two, the low byte stored first (R80). -/
theorem push16_eq (s : State) (w : Word) : s.push16 w =
    { s with
      sp := dec16 s.sp 2
      bus := (s.bus.write (dec16 s.sp 2) (lowByte w)).write (inc16 (dec16 s.sp 2) 1) (highByte w)
      busLog := s.busLog ++ [.write (dec16 s.sp 2) (lowByte w), .write (inc16 (dec16 s.sp 2) 1) (highByte w)] } := by
  simp [push16, busWrite, setSp]

/-- `pop16`: the bytes at sp and sp + 1, low byte first, sp up by two (R81). -/
theorem pop16_eq (s : State) : s.pop16 =
    (wordOf ((s.bus.read s.sp).2.peek (inc16 s.sp 1)) (s.bus.peek s.sp),
     { s with
       sp := inc16 s.sp 2
       bus := ((s.bus.read s.sp).2.read (inc16 s.sp 1)).2
       busLog := s.busLog ++ [.read s.sp (s.bus.peek s.sp),
         .read (inc16 s.sp 1) ((s.bus.read s.sp).2.peek (inc16 s.sp 1))] }) := by
  simp [pop16, busRead, setSp]

/-- Everything the fetch of an instruction changes: pc, the bus and the record of accesses, by the slot's length (R18, R56). -/
theorem fetchInstr_snd (s : State) : s.fetchInstr.2 = s.afterFetch (decodeOpcode (s.bus.peek s.pc)).length := by
  unfold fetchInstr
  simp only [fetch8_eq, fetch16_eq]
  cases decodeOpcode (s.bus.peek s.pc) <;>
    simp [Slot.length, afterFetch, Bus.after, Bus.readsFrom, inc16_inc16] <;> simp [inc16]

/-- The instruction fetched is the one the decoder reads from the bytes at pc (R61, R73). -/
theorem fetchInstr_fst_of_decode {s : State} {i : Instr} {rest : List Byte}
    (h : decode (s.bus.bytesFrom s.pc 3) = .ok (i, rest)) : s.fetchInstr.1 = i := by
  unfold fetchInstr
  simp only [fetch8_eq, fetch16_eq]
  simp only [Bus.bytesFrom, decode] at h
  have e (w : Word) : inc16 w 1 = w + 1#16 := rfl
  cases hs : decodeOpcode (s.bus.peek s.pc) <;> simp_all

end State

/-- The three cases of a step (R70, R79, R82). -/
theorem step_cases (s : State) :
    (s.initialised = false ∧ step s = .refused .notInitialised) ∨
    (s.initialised = true ∧ s.halted = true ∧ step s = .next s.haltedTick) ∨
    (s.initialised = true ∧ s.halted = false ∧ step s = exec s.beginStep.fetchInstr.1 s.beginStep.fetchInstr.2) := by
  unfold step
  cases s.initialised <;> cases s.halted <;> simp

end Sys2Proof.Machine
end

