-- ==== Sys2Proof/Laws/Exec.lean ====
section
/-! SUPPORT. The meanings by form: one equation that turns the 124 arms of `exec` into thirteen cases. -/

namespace Sys2Proof.Machine

/-- The meaning of a form, in the shared operations. -/
def execForm : Form → State → Result
  | .ldRR dst src, s => loadRegReg dst src s
  | .ldRImm dst v, s => loadRegImm dst v s
  | .ldRAtHL dst, s => loadRegAtHL dst s
  | .ldAtHLR src, s => storeAtHLReg src s
  | .aluR op src, s => aluWithReg op src s
  | .aluAtHL op, s => aluWithAtHL op s
  | .aluImm op v, s => aluWithImm op v s
  | .jp a16, s => execJpA16 a16 s
  | .call a16, s => execCallA16 a16 s
  | .ret, s => execRet s
  | .jr cc r8, s => jumpRelative cc r8 s
  | .halt, s => execHalt s
  | .empty op, s => raiseUnimplementedOpcode op s

/-- An instruction does what its form does. -/
theorem exec_eq_execForm (i : Instr) (s : State) : exec i s = execForm i.form s := by cases i <;> rfl

end Sys2Proof.Machine

namespace Sys2Proof

@[simp] theorem Instr.form_ldRR (dst src : Reg8) : (Instr.ldRR dst src).form = .ldRR dst src := by
  cases dst <;> cases src <;> rfl

@[simp] theorem Instr.form_ldRImm (dst : Reg8) (v : Byte) : (Instr.ldRImm dst v).form = .ldRImm dst v := by
  cases dst <;> rfl

@[simp] theorem Instr.form_ldRAtHL (dst : Reg8) : (Instr.ldRAtHL dst).form = .ldRAtHL dst := by cases dst <;> rfl

@[simp] theorem Instr.form_ldAtHLR (src : Reg8) : (Instr.ldAtHLR src).form = .ldAtHLR src := by cases src <;> rfl

@[simp] theorem Instr.form_aluR (op : AluOp) (src : Reg8) : (Instr.aluR op src).form = .aluR op src := by
  cases op <;> cases src <;> rfl

@[simp] theorem Instr.form_aluAtHL (op : AluOp) : (Instr.aluAtHL op).form = .aluAtHL op := by cases op <;> rfl

@[simp] theorem Instr.form_aluImm (op : AluOp) (v : Byte) : (Instr.aluImm op v).form = .aluImm op v := by
  cases op <;> rfl

@[simp] theorem Instr.form_jr (cc : Cond) (v : Byte) : (Instr.jr cc v).form = .jr cc v := by cases cc <;> rfl

end Sys2Proof
end

