-- ==== Sys2Proof/Laws/PerInstr.lean ====
section
/-! SUPPORT. Facts about every instruction as syntax, one lemma per constructor. -/

/-- The slot of an instruction's opcode byte tells its length in bytes (R56): the encoder and the dispatch table agree on it. -/
def Sys2Proof.Laws.EncodedLength.Statement (i : Sys2Proof.Instr) : Prop :=
  i.wf = true → (Sys2Proof.decodeOpcode i.opcode).length = (Sys2Proof.encode i).length

namespace Sys2Proof.Laws.EncodedLength

set_option maxRecDepth 20000 in
theorem empty (opcode : Byte) : Statement (.empty opcode) := by
  have all : ∀ k : Fin 256, isEmptyByte (BitVec.ofFin k) = true → (decodeOpcode (BitVec.ofFin k)).length = 1 := by decide
  exact fun h => all opcode.toFin h

theorem ldBImm (d8 : Byte) : Statement (.ldBImm d8) := fun _ => rfl

theorem ldCImm (d8 : Byte) : Statement (.ldCImm d8) := fun _ => rfl

theorem ldDImm (d8 : Byte) : Statement (.ldDImm d8) := fun _ => rfl

theorem ldEImm (d8 : Byte) : Statement (.ldEImm d8) := fun _ => rfl

theorem jrNz (r8 : Byte) : Statement (.jrNz r8) := fun _ => rfl

theorem ldHImm (d8 : Byte) : Statement (.ldHImm d8) := fun _ => rfl

theorem jrZ (r8 : Byte) : Statement (.jrZ r8) := fun _ => rfl

theorem ldLImm (d8 : Byte) : Statement (.ldLImm d8) := fun _ => rfl

theorem jrNc (r8 : Byte) : Statement (.jrNc r8) := fun _ => rfl

theorem jrC (r8 : Byte) : Statement (.jrC r8) := fun _ => rfl

theorem ldAImm (d8 : Byte) : Statement (.ldAImm d8) := fun _ => rfl

theorem ldBB : Statement (.ldBB) := fun _ => rfl

theorem ldBC : Statement (.ldBC) := fun _ => rfl

theorem ldBD : Statement (.ldBD) := fun _ => rfl

theorem ldBE : Statement (.ldBE) := fun _ => rfl

theorem ldBH : Statement (.ldBH) := fun _ => rfl

theorem ldBL : Statement (.ldBL) := fun _ => rfl

theorem ldBAtHL : Statement (.ldBAtHL) := fun _ => rfl

theorem ldBA : Statement (.ldBA) := fun _ => rfl

theorem ldCB : Statement (.ldCB) := fun _ => rfl

theorem ldCC : Statement (.ldCC) := fun _ => rfl

theorem ldCD : Statement (.ldCD) := fun _ => rfl

theorem ldCE : Statement (.ldCE) := fun _ => rfl

theorem ldCH : Statement (.ldCH) := fun _ => rfl

theorem ldCL : Statement (.ldCL) := fun _ => rfl

theorem ldCAtHL : Statement (.ldCAtHL) := fun _ => rfl

theorem ldCA : Statement (.ldCA) := fun _ => rfl

theorem ldDB : Statement (.ldDB) := fun _ => rfl

theorem ldDC : Statement (.ldDC) := fun _ => rfl

theorem ldDD : Statement (.ldDD) := fun _ => rfl

theorem ldDE : Statement (.ldDE) := fun _ => rfl

theorem ldDH : Statement (.ldDH) := fun _ => rfl

theorem ldDL : Statement (.ldDL) := fun _ => rfl

theorem ldDAtHL : Statement (.ldDAtHL) := fun _ => rfl

theorem ldDA : Statement (.ldDA) := fun _ => rfl

theorem ldEB : Statement (.ldEB) := fun _ => rfl

theorem ldEC : Statement (.ldEC) := fun _ => rfl

theorem ldED : Statement (.ldED) := fun _ => rfl

theorem ldEE : Statement (.ldEE) := fun _ => rfl

theorem ldEH : Statement (.ldEH) := fun _ => rfl

theorem ldEL : Statement (.ldEL) := fun _ => rfl

theorem ldEAtHL : Statement (.ldEAtHL) := fun _ => rfl

theorem ldEA : Statement (.ldEA) := fun _ => rfl

theorem ldHB : Statement (.ldHB) := fun _ => rfl

theorem ldHC : Statement (.ldHC) := fun _ => rfl

theorem ldHD : Statement (.ldHD) := fun _ => rfl

theorem ldHE : Statement (.ldHE) := fun _ => rfl

theorem ldHH : Statement (.ldHH) := fun _ => rfl

theorem ldHL : Statement (.ldHL) := fun _ => rfl

theorem ldHAtHL : Statement (.ldHAtHL) := fun _ => rfl

theorem ldHA : Statement (.ldHA) := fun _ => rfl

theorem ldLB : Statement (.ldLB) := fun _ => rfl

theorem ldLC : Statement (.ldLC) := fun _ => rfl

theorem ldLD : Statement (.ldLD) := fun _ => rfl

theorem ldLE : Statement (.ldLE) := fun _ => rfl

theorem ldLH : Statement (.ldLH) := fun _ => rfl

theorem ldLL : Statement (.ldLL) := fun _ => rfl

theorem ldLAtHL : Statement (.ldLAtHL) := fun _ => rfl

theorem ldLA : Statement (.ldLA) := fun _ => rfl

theorem ldAtHLB : Statement (.ldAtHLB) := fun _ => rfl

theorem ldAtHLC : Statement (.ldAtHLC) := fun _ => rfl

theorem ldAtHLD : Statement (.ldAtHLD) := fun _ => rfl

theorem ldAtHLE : Statement (.ldAtHLE) := fun _ => rfl

theorem ldAtHLH : Statement (.ldAtHLH) := fun _ => rfl

theorem ldAtHLL : Statement (.ldAtHLL) := fun _ => rfl

theorem halt : Statement (.halt) := fun _ => rfl

theorem ldAtHLA : Statement (.ldAtHLA) := fun _ => rfl

theorem ldAB : Statement (.ldAB) := fun _ => rfl

theorem ldAC : Statement (.ldAC) := fun _ => rfl

theorem ldAD : Statement (.ldAD) := fun _ => rfl

theorem ldAE : Statement (.ldAE) := fun _ => rfl

theorem ldAH : Statement (.ldAH) := fun _ => rfl

theorem ldAL : Statement (.ldAL) := fun _ => rfl

theorem ldAAtHL : Statement (.ldAAtHL) := fun _ => rfl

theorem ldAA : Statement (.ldAA) := fun _ => rfl

theorem addAB : Statement (.addAB) := fun _ => rfl

theorem addAC : Statement (.addAC) := fun _ => rfl

theorem addAD : Statement (.addAD) := fun _ => rfl

theorem addAE : Statement (.addAE) := fun _ => rfl

theorem addAH : Statement (.addAH) := fun _ => rfl

theorem addAL : Statement (.addAL) := fun _ => rfl

theorem addAAtHL : Statement (.addAAtHL) := fun _ => rfl

theorem addAA : Statement (.addAA) := fun _ => rfl

theorem adcAB : Statement (.adcAB) := fun _ => rfl

theorem adcAC : Statement (.adcAC) := fun _ => rfl

theorem adcAD : Statement (.adcAD) := fun _ => rfl

theorem adcAE : Statement (.adcAE) := fun _ => rfl

theorem adcAH : Statement (.adcAH) := fun _ => rfl

theorem adcAL : Statement (.adcAL) := fun _ => rfl

theorem adcAAtHL : Statement (.adcAAtHL) := fun _ => rfl

theorem adcAA : Statement (.adcAA) := fun _ => rfl

theorem subB : Statement (.subB) := fun _ => rfl

theorem subC : Statement (.subC) := fun _ => rfl

theorem subD : Statement (.subD) := fun _ => rfl

theorem subE : Statement (.subE) := fun _ => rfl

theorem subH : Statement (.subH) := fun _ => rfl

theorem subL : Statement (.subL) := fun _ => rfl

theorem subAtHL : Statement (.subAtHL) := fun _ => rfl

theorem subA : Statement (.subA) := fun _ => rfl

theorem xorB : Statement (.xorB) := fun _ => rfl

theorem xorC : Statement (.xorC) := fun _ => rfl

theorem xorD : Statement (.xorD) := fun _ => rfl

theorem xorE : Statement (.xorE) := fun _ => rfl

theorem xorH : Statement (.xorH) := fun _ => rfl

theorem xorL : Statement (.xorL) := fun _ => rfl

theorem xorAtHL : Statement (.xorAtHL) := fun _ => rfl

theorem xorA : Statement (.xorA) := fun _ => rfl

theorem cpB : Statement (.cpB) := fun _ => rfl

theorem cpC : Statement (.cpC) := fun _ => rfl

theorem cpD : Statement (.cpD) := fun _ => rfl

theorem cpE : Statement (.cpE) := fun _ => rfl

theorem cpH : Statement (.cpH) := fun _ => rfl

theorem cpL : Statement (.cpL) := fun _ => rfl

theorem cpAtHL : Statement (.cpAtHL) := fun _ => rfl

theorem cpA : Statement (.cpA) := fun _ => rfl

theorem jpA16 (a16 : Word) : Statement (.jpA16 a16) := fun _ => rfl

theorem addAImm (d8 : Byte) : Statement (.addAImm d8) := fun _ => rfl

theorem ret : Statement (.ret) := fun _ => rfl

theorem callA16 (a16 : Word) : Statement (.callA16 a16) := fun _ => rfl

theorem adcAImm (d8 : Byte) : Statement (.adcAImm d8) := fun _ => rfl

theorem subImm (d8 : Byte) : Statement (.subImm d8) := fun _ => rfl

theorem xorImm (d8 : Byte) : Statement (.xorImm d8) := fun _ => rfl

theorem cpImm (d8 : Byte) : Statement (.cpImm d8) := fun _ => rfl

end Sys2Proof.Laws.EncodedLength
end

