-- ==== Sys2Proof/Tests/Slice0.lean ====
section
/-! SUPPORT. The model's own tests: decoding of words written out from R54, single steps with the results of
95_test_vectors.md (named by its ids), the WellFormed smoke test, and a witness for the hypotheses of every obligation. -/

namespace Sys2Proof.Tests

open Sys2Proof.Machine

set_option maxRecDepth 20000

/-! ### WellFormed -/

/-- An `empty` that carries a registered byte is no instruction of the hardware (R55): HALT's byte, and a boundary of each range. -/
theorem smoke_empty_with_registered_byte_is_ill_formed :
    [0x06#8, 0x0E#8, 0x20#8, 0x38#8, 0x3E#8, 0x40#8, 0x76#8, 0x97#8, 0xA8#8, 0xAF#8, 0xB8#8, 0xC3#8, 0xC6#8, 0xC9#8, 0xCD#8,
      0xCE#8, 0xD6#8, 0xEE#8, 0xFE#8].all (fun op => !(Instr.empty op).wf) = true := by decide

theorem smoke_empty_with_empty_byte_is_well_formed :
    [0x00#8, 0x05#8, 0x36#8, 0x3F#8, 0x98#8, 0xA7#8, 0xB0#8, 0xC0#8, 0xCB#8, 0xED#8, 0xF0#8, 0xFF#8].all
      (fun op => (Instr.empty op).wf) = true := by decide

/-! ### Decode: every constructor, its byte from the grid of R54; then operands -/

def decodesTo (rows : List (Nat × Instr)) : Bool := rows.all fun r => decide (decodeTableWord 8 r.1 = some r.2)

theorem test_decode_row_0 : decodesTo [(0x06, .ldBImm 0), (0x0E, .ldCImm 0)] = true := by decide

theorem test_decode_row_1 : decodesTo [(0x16, .ldDImm 0), (0x1E, .ldEImm 0)] = true := by decide

theorem test_decode_row_2 : decodesTo [(0x20, .jrNz 0), (0x26, .ldHImm 0), (0x28, .jrZ 0), (0x2E, .ldLImm 0)] = true := by decide

theorem test_decode_row_3 : decodesTo [(0x30, .jrNc 0), (0x38, .jrC 0), (0x3E, .ldAImm 0)] = true := by decide

theorem test_decode_row_4 : decodesTo [(0x40, .ldBB), (0x41, .ldBC), (0x42, .ldBD), (0x43, .ldBE), (0x44, .ldBH), (0x45, .ldBL),
    (0x46, .ldBAtHL), (0x47, .ldBA), (0x48, .ldCB), (0x49, .ldCC), (0x4A, .ldCD), (0x4B, .ldCE),
    (0x4C, .ldCH), (0x4D, .ldCL), (0x4E, .ldCAtHL), (0x4F, .ldCA)] = true := by decide

theorem test_decode_row_5 : decodesTo [(0x50, .ldDB), (0x51, .ldDC), (0x52, .ldDD), (0x53, .ldDE), (0x54, .ldDH), (0x55, .ldDL),
    (0x56, .ldDAtHL), (0x57, .ldDA), (0x58, .ldEB), (0x59, .ldEC), (0x5A, .ldED), (0x5B, .ldEE),
    (0x5C, .ldEH), (0x5D, .ldEL), (0x5E, .ldEAtHL), (0x5F, .ldEA)] = true := by decide

theorem test_decode_row_6 : decodesTo [(0x60, .ldHB), (0x61, .ldHC), (0x62, .ldHD), (0x63, .ldHE), (0x64, .ldHH), (0x65, .ldHL),
    (0x66, .ldHAtHL), (0x67, .ldHA), (0x68, .ldLB), (0x69, .ldLC), (0x6A, .ldLD), (0x6B, .ldLE),
    (0x6C, .ldLH), (0x6D, .ldLL), (0x6E, .ldLAtHL), (0x6F, .ldLA)] = true := by decide

theorem test_decode_row_7 : decodesTo [(0x70, .ldAtHLB), (0x71, .ldAtHLC), (0x72, .ldAtHLD), (0x73, .ldAtHLE), (0x74, .ldAtHLH), (0x75, .ldAtHLL),
    (0x76, .halt), (0x77, .ldAtHLA), (0x78, .ldAB), (0x79, .ldAC), (0x7A, .ldAD), (0x7B, .ldAE),
    (0x7C, .ldAH), (0x7D, .ldAL), (0x7E, .ldAAtHL), (0x7F, .ldAA)] = true := by decide

theorem test_decode_row_8 : decodesTo [(0x80, .addAB), (0x81, .addAC), (0x82, .addAD), (0x83, .addAE), (0x84, .addAH), (0x85, .addAL),
    (0x86, .addAAtHL), (0x87, .addAA), (0x88, .adcAB), (0x89, .adcAC), (0x8A, .adcAD), (0x8B, .adcAE),
    (0x8C, .adcAH), (0x8D, .adcAL), (0x8E, .adcAAtHL), (0x8F, .adcAA)] = true := by decide

theorem test_decode_row_9 : decodesTo [(0x90, .subB), (0x91, .subC), (0x92, .subD), (0x93, .subE), (0x94, .subH), (0x95, .subL),
    (0x96, .subAtHL), (0x97, .subA)] = true := by decide

theorem test_decode_row_A : decodesTo [(0xA8, .xorB), (0xA9, .xorC), (0xAA, .xorD), (0xAB, .xorE), (0xAC, .xorH), (0xAD, .xorL),
    (0xAE, .xorAtHL), (0xAF, .xorA)] = true := by decide

theorem test_decode_row_B : decodesTo [(0xB8, .cpB), (0xB9, .cpC), (0xBA, .cpD), (0xBB, .cpE), (0xBC, .cpH), (0xBD, .cpL),
    (0xBE, .cpAtHL), (0xBF, .cpA)] = true := by decide

theorem test_decode_row_C : decodesTo [(0xC3, .jpA16 0), (0xC6, .addAImm 0), (0xC9, .ret), (0xCD, .callA16 0), (0xCE, .adcAImm 0)] = true := by decide

theorem test_decode_row_D : decodesTo [(0xD6, .subImm 0)] = true := by decide

theorem test_decode_row_E : decodesTo [(0xEE, .xorImm 0)] = true := by decide

theorem test_decode_row_F : decodesTo [(0xFE, .cpImm 0)] = true := by decide

/-- The operand bytes: d8 and r8 in byte 1, a16 low byte first (R51, R53). -/
theorem test_decode_operands :
    decodeTableWord 16 0x423E = some (.ldAImm 0x42#8) ∧ decodeTableWord 16 0x80C6 = some (.addAImm 0x80#8) ∧
    decodeTableWord 16 0xFD20 = some (.jrNz 0xFD#8) ∧ decodeTableWord 24 0x0150C3 = some (.jpA16 0x0150#16) ∧
    decodeTableWord 24 0x010ACD = some (.callA16 0x010A#16) := by decide

/-- Bits above `nbits` are not read. -/
theorem test_decode_masks_to_nbits : decodeTableWord 8 0x423E = some (.ldAImm 0x00#8) := by decide

theorem test_decode_rejects_by_name :
    decode [] = .error .noOpcode ∧ decode [0x3E#8] = .error (.missingOperand 0x3E#8) ∧
    decode [0xC3#8, 0x50#8] = .error (.missingOperand 0xC3#8) := ⟨rfl, rfl, rfl⟩

theorem test_decode_empty_bytes :
    (List.range 256).all (fun n => !isEmptyByte (BitVec.ofNat 8 n) ||
      decide (decodeTableWord 8 n = some (.empty (BitVec.ofNat 8 n)))) = true := by decide

/-! ### One step on a small state -/

/-- The bytes at 0x0200, pc there. -/
def at200 (s : State) (bytes : List Byte) : State := { s with pc := 0x0200#16 }.loadImage 0x0200#16 bytes

/-- The step completes and its state has the property. -/
def stepGives (s : State) (p : State → Bool) : Bool :=
  match step s with
  | .next t => p t
  | .fault _ => false
  | .refused _ => false

/-- The step ends in the fault. -/
def stepFaults (s : State) (op : Byte) (addr : Word) : Bool :=
  match step s with
  | .next _ => false
  | .fault r => decide (r = .unimplementedOpcode op addr)
  | .refused _ => false

/-- The start state of 95_test_vectors.md 2.2. -/
def loadBase : State :=
  { State.reset with a := 0x11#8, b := 0x22#8, c := 0x33#8, d := 0x44#8, e := 0x55#8, h := 0xC0#8, l := 0x10#8,
                     bus := Bus.flat [(0xC010, 0x5A#8)] }

/-- Every registered byte runs as the first instruction after reset and every EMPTY byte faults there, reported with its
address (R54, R55, R151). -/
theorem test_every_byte_after_reset :
    (List.range 256).all (fun n => bif isEmptyByte (BitVec.ofNat 8 n)
      then stepFaults (State.reset.withFetchWord 8 n) (BitVec.ofNat 8 n) 0x0100#16
      else stepGives (State.reset.withFetchWord 8 n) fun _ => true) = true := by decide

/-- L-1, L-4, L-6, L-8. -/
theorem test_load_registers :
    stepGives (at200 loadBase [0x78#8]) (fun t => t.a == 0x22#8 && t.pc == 0x0201#16 && t.f == 0xB0#8) ∧
    stepGives (at200 loadBase [0x65#8]) (fun t => t.pair .hl == 0x1010#16) ∧
    stepGives (at200 loadBase [0x40#8]) (fun t => t.b == 0x22#8 && t.pc == 0x0201#16) ∧
    stepGives (at200 loadBase [0x2E#8, 0xFF#8]) (fun t => t.l == 0xFF#8 && t.pc == 0x0202#16) := by decide

/-- L-10, L-11: the address is formed from the old H and L. -/
theorem test_load_from_memory :
    stepGives (at200 loadBase [0x66#8]) (fun t => t.pair .hl == 0x5A10#16) ∧
    stepGives (at200 loadBase [0x6E#8]) (fun t => t.pair .hl == 0xC05A#16) := by decide

/-- L-12, L-13, L-14, L-15. -/
theorem test_store_to_memory :
    stepGives (at200 loadBase [0x77#8]) (fun t => t.bus.peek 0xC010#16 == 0x11#8) ∧
    stepGives (at200 loadBase [0x74#8]) (fun t => t.bus.peek 0xC010#16 == 0xC0#8) ∧
    stepGives (at200 loadBase [0x75#8]) (fun t => t.bus.peek 0xC010#16 == 0x10#8) ∧
    stepGives (at200 { loadBase with h := 0x02#8, l := 0x01#8, a := 0x76#8 } [0x77#8])
      (fun t => stepGives t fun u => u.halted && u.pc == 0x0202#16) := by decide

/-- D-2, D-3: a fetch across the top of the address space. -/
theorem test_fetch_wraps :
    stepGives ({ State.reset with pc := 0xFFFF#16 }.loadImage 0xFFFF#16 [0x3E#8, 0x99#8])
      (fun t => t.a == 0x99#8 && t.pc == 0x0001#16) ∧
    stepGives ({ State.reset with pc := 0xFFFE#16 }.loadImage 0xFFFE#16 [0xC3#8, 0x34#8, 0x12#8])
      (fun t => t.pc == 0x1234#16 &&
        t.busLog == [.read 0xFFFE#16 0xC3#8, .read 0xFFFF#16 0x34#8, .read 0x0000#16 0x12#8]) := by decide

/-- D-5, D-6: the fault reports the byte and where it lived. -/
theorem test_fault_payload :
    stepFaults { State.reset with pc := 0xFFFF#16 } 0x00#8 0xFFFF#16 ∧
    stepFaults (at200 State.reset [0xCB#8, 0x3E#8]) 0xCB#8 0x0200#16 ∧
    (at200 State.reset [0xCB#8]).atFault.pc = 0x0201#16 := by decide

/-- D-1: a halted step makes no bus access and moves nothing. -/
theorem test_halted_step :
    stepGives { State.reset with halted := true, pc := 0x0101#16 }
      (fun t => t.pc == 0x0101#16 && t.halted && t.busLog == []) = true := by decide

/-- A row of the tables of 95_test_vectors.md 2.3 to 2.6: a, b, F before, A after, F after. -/
structure AluRow where
  a : Byte
  b : Byte
  f : Byte
  res : Byte
  flags : Byte

/-- A row holds of the d8 form, the register form on B, and the form at HL. -/
def aluRowHolds (op : AluOp) (r : AluRow) : Bool :=
  let s : State := { State.reset with a := r.a, b := r.b, f := r.f, h := 0xC0#8, l := 0x00#8,
                                      bus := State.reset.bus.write 0xC000#16 r.b }
  let good : Result → Bool := fun x =>
    match x with
    | .next t => t.a == r.res && t.f == r.flags
    | .fault _ => false
    | .refused _ => false
  good (exec (.aluImm op r.b) s) && good (exec (.aluR op .b) s) && good (exec (.aluAtHL op) s)

theorem test_add_table :
    [⟨0x00#8, 0x00#8, 0xF0#8, 0x00#8, 0x80#8⟩, ⟨0x0F#8, 0x01#8, 0xF0#8, 0x10#8, 0x20#8⟩, ⟨0x7F#8, 0x01#8, 0x10#8, 0x80#8, 0x20#8⟩,
     ⟨0xF0#8, 0x10#8, 0x00#8, 0x00#8, 0x90#8⟩, ⟨0xFF#8, 0x01#8, 0x10#8, 0x00#8, 0xB0#8⟩, ⟨0xFF#8, 0xFF#8, 0x10#8, 0xFE#8, 0x30#8⟩,
     ⟨0x01#8, 0xFE#8, 0x10#8, 0xFF#8, 0x00#8⟩].all (aluRowHolds .add) = true := by decide

theorem test_adc_table :
    [⟨0x00#8, 0x00#8, 0x00#8, 0x00#8, 0x80#8⟩, ⟨0x00#8, 0x00#8, 0x10#8, 0x01#8, 0x00#8⟩, ⟨0x0E#8, 0x01#8, 0x10#8, 0x10#8, 0x20#8⟩,
     ⟨0xFF#8, 0x00#8, 0x10#8, 0x00#8, 0xB0#8⟩, ⟨0xF0#8, 0x0F#8, 0x10#8, 0x00#8, 0xB0#8⟩, ⟨0xFF#8, 0xFF#8, 0x10#8, 0xFF#8, 0x30#8⟩,
     ⟨0x12#8, 0x0A#8, 0x10#8, 0x1D#8, 0x00#8⟩].all (aluRowHolds .adc) = true := by decide

theorem test_sub_table :
    [⟨0x3C#8, 0x3C#8, 0x10#8, 0x00#8, 0xC0#8⟩, ⟨0x03#8, 0x01#8, 0x10#8, 0x02#8, 0x40#8⟩, ⟨0x10#8, 0x01#8, 0x00#8, 0x0F#8, 0x60#8⟩,
     ⟨0x01#8, 0x10#8, 0x00#8, 0xF1#8, 0x50#8⟩, ⟨0x0F#8, 0xF0#8, 0x00#8, 0x1F#8, 0x50#8⟩, ⟨0x00#8, 0x01#8, 0x00#8, 0xFF#8, 0x70#8⟩,
     ⟨0x00#8, 0xFF#8, 0x00#8, 0x01#8, 0x70#8⟩].all (aluRowHolds .sub) = true := by decide

theorem test_cp_table :
    [⟨0x42#8, 0x42#8, 0x10#8, 0x42#8, 0xC0#8⟩, ⟨0x3C#8, 0x2F#8, 0x10#8, 0x3C#8, 0x60#8⟩, ⟨0x3C#8, 0x40#8, 0x00#8, 0x3C#8, 0x50#8⟩,
     ⟨0x05#8, 0x09#8, 0x00#8, 0x05#8, 0x70#8⟩].all (aluRowHolds .cp) = true := by decide

theorem test_xor_table :
    [⟨0x5A#8, 0x5A#8, 0xF0#8, 0x00#8, 0x80#8⟩, ⟨0xFF#8, 0x00#8, 0xF0#8, 0xFF#8, 0x00#8⟩, ⟨0xF0#8, 0x3C#8, 0xF0#8, 0xCC#8, 0x00#8⟩,
     ⟨0x5A#8, 0xFF#8, 0xF0#8, 0xA5#8, 0x00#8⟩].all (aluRowHolds .xor) = true := by decide

/-- ADD A,A; ADC A,A; SUB A; CP A; XOR A: the operand is the old A (95_test_vectors.md 2.3 to 2.6). -/
theorem test_alu_on_itself :
    stepGives (at200 { State.reset with a := 0x88#8 } [0x87#8]) (fun t => t.a == 0x10#8 && t.f == 0x30#8) ∧
    stepGives (at200 { State.reset with a := 0x80#8, f := 0x10#8 } [0x8F#8]) (fun t => t.a == 0x01#8 && t.f == 0x10#8) ∧
    stepGives (at200 { State.reset with a := 0x5A#8 } [0x97#8]) (fun t => t.a == 0x00#8 && t.f == 0xC0#8) ∧
    stepGives (at200 { State.reset with a := 0x5A#8 } [0xBF#8]) (fun t => t.a == 0x5A#8 && t.f == 0xC0#8) ∧
    stepGives (at200 { State.reset with a := 0x5A#8, f := 0xF0#8 } [0xAF#8]) (fun t => t.a == 0x00#8 && t.f == 0x80#8) := by
  decide

/-- T-5, T-7: CALL, and CALL with the stack across the top of memory. -/
theorem test_call :
    stepGives ({ State.reset with pc := 0x0106#16 }.loadImage 0x0106#16 [0xCD#8, 0x0A#8, 0x01#8])
      (fun t => t.pc == 0x010A#16 && t.sp == 0xFFFC#16 && t.bus.peek 0xFFFC#16 == 0x09#8 && t.bus.peek 0xFFFD#16 == 0x01#8) ∧
    stepGives (at200 { State.reset with sp := 0x0001#16 } [0xCD#8, 0x00#8, 0x30#8])
      (fun t => t.pc == 0x3000#16 && t.sp == 0xFFFF#16 && t.bus.peek 0xFFFF#16 == 0x03#8 && t.bus.peek 0x0000#16 == 0x02#8) := by
  decide

/-- T-8: RET with the stack across the top of memory. -/
theorem test_ret :
    stepGives (({ State.reset with pc := 0x0300#16, sp := 0xFFFF#16 }.loadImage 0xFFFF#16 [0x03#8, 0x02#8]).loadImage 0x0300#16
      [0xC9#8]) (fun t => t.pc == 0x0203#16 && t.sp == 0x0001#16) = true := by decide

/-- T-10 to T-20: each condition, taken and not, both signs, the wrap. -/
theorem test_jr :
    stepGives (at200 { State.reset with f := 0x00#8 } [0x20#8, 0x05#8]) (fun t => t.pc == 0x0207#16) ∧
    stepGives (at200 { State.reset with f := 0x80#8 } [0x20#8, 0x05#8]) (fun t => t.pc == 0x0202#16) ∧
    stepGives (at200 { State.reset with f := 0x80#8 } [0x28#8, 0x05#8]) (fun t => t.pc == 0x0207#16) ∧
    stepGives (at200 { State.reset with f := 0x70#8 } [0x28#8, 0x05#8]) (fun t => t.pc == 0x0202#16) ∧
    stepGives (at200 { State.reset with f := 0xE0#8 } [0x30#8, 0x80#8]) (fun t => t.pc == 0x0182#16) ∧
    stepGives (at200 { State.reset with f := 0x10#8 } [0x30#8, 0x80#8]) (fun t => t.pc == 0x0202#16) ∧
    stepGives (at200 { State.reset with f := 0x10#8 } [0x38#8, 0x7F#8]) (fun t => t.pc == 0x0281#16) ∧
    stepGives (at200 { State.reset with f := 0xE0#8 } [0x38#8, 0x7F#8]) (fun t => t.pc == 0x0202#16) ∧
    stepGives ({ State.reset with pc := 0x0000#16, f := 0x00#8 }.loadImage 0x0000#16 [0x20#8, 0xFD#8])
      (fun t => t.pc == 0xFFFF#16) := by decide

/-- T-3, T-23. -/
theorem test_jp_and_halt :
    stepGives (at200 State.reset [0xC3#8, 0xFF#8, 0xFF#8]) (fun t => t.pc == 0xFFFF#16) ∧
    stepGives (at200 State.reset [0x76#8]) (fun t => t.halted && t.pc == 0x0201#16 && t.f == 0xB0#8) := by decide

/-! ### Other buses than the reference bus (R43) -/

/-- LD (HL),A at 0xC200 on a bus whose part at HL = 0x4000 is ROM, and on one where it is a device: ROM keeps its byte, the device
sees the write, no byte of memory changes; the accesses are those of R39 on both. -/
theorem test_store_to_rom_and_device :
    [BusPart.rom, .device 0].all (fun part =>
      let bus : Bus := { map := [⟨0x4000#16, 0x100, part⟩], mem := [(0x4000, 0x11#8), (0xC200, 0x77#8)], deviceLog := [] }
      stepGives { State.reset with bus := bus, pc := 0xC200#16, h := 0x40#8, l := 0x00#8, a := 0x22#8 } fun t =>
        t.bus.mem == bus.mem && t.bus.deviceLog == (if part = .rom then [] else [.write 0x4000#16 0x22#8]) &&
        t.busLog == [.read 0xC200#16 0x77#8, .write 0x4000#16 0x22#8]) = true := by decide

/-- LD B,(HL) at a device: the byte is the device's, whatever it is, and the device has seen the read. -/
theorem test_load_from_device :
    ∃ t, exec .ldBAtHL { State.reset with bus := { Bus.flat [] with map := [⟨0x014D#16, 1, .device 7⟩] } } = .next t ∧
      t.b = Config.deviceByte 7 [] 0x014D#16 ∧ t.bus.deviceLog = [.read 0x014D#16 (Config.deviceByte 7 [] 0x014D#16)] :=
  ⟨_, rfl, rfl, rfl⟩

/-- An instruction placed where a device answers is fetched from memory. -/
theorem test_withFetchWord_at_device :
    stepGives ({ State.reset with bus := { Bus.flat [] with map := [⟨0x0000#16, 0x101, .device 7⟩] } }.withFetchWord 16 0x993E)
      (fun t => t.a == 0x99#8 && t.bus.deviceLog == []) = true := by decide

/-! ### Witnesses: concrete values that meet the hypotheses of the obligations -/

/-- A well-formed instruction of each kind `wf` tells apart. -/
theorem witness_DecodeOfEncodeIsIdentity : (Instr.empty 0x00#8).wf = true ∧ (Instr.jpA16 0xFFFF#16).wf = true := by decide

theorem witness_EncodeOfDecodeIsIdentity :
    decode [0xCD#8, 0x0A#8, 0x01#8, 0x76#8] = .ok (.callA16 0x010A#16, [0x76#8]) ∧
    decode [0xFF#8] = .ok (.empty 0xFF#8, []) := ⟨rfl, rfl⟩

/-- Both clauses, at the boundary: a list just long enough and one byte short. -/
theorem witness_OpcodeTellsTheLength :
    (decodeOpcode 0xC3#8).length ≤ [0x50#8, 0x01#8].length + 1 ∧ [0x50#8].length + 1 < (decodeOpcode 0xC3#8).length := by decide

theorem witness_StepRunsTheDecodedInstruction :
    (at200 loadBase [0xC3#8, 0x50#8, 0x01#8]).Running ∧
    decode ((at200 loadBase [0xC3#8, 0x50#8, 0x01#8]).bus.bytesFrom 0x0200#16 3) = .ok (.jpA16 0x0150#16, []) := ⟨by decide, rfl⟩

/-- A halted core. -/
def haltedState : State := { State.reset with halted := true }

theorem witness_HaltedStepOnlyTicks : haltedState.initialised = true ∧ haltedState.halted = true := by decide

/-- Reset, whose memory lists nothing: the byte at pc is 0x00, EMPTY. -/
theorem witness_EmptyOpcodeReportsByteAndAddress :
    State.reset.Running ∧ isEmptyByte (State.reset.bus.peek State.reset.pc) = true := by decide

theorem witness_FaultExactlyOnEmptyOpcode : step State.reset = .fault (.unimplementedOpcode 0x00#8 0x0100#16) := rfl

theorem witness_FaultLeavesOnlyTheFetch : isEmptyByte (State.reset.bus.peek State.reset.pc) = true := by decide

theorem witness_StepRefusedExactlyBeforeInit : step { State.reset with initialised := false } = .refused .notInitialised := rfl

theorem witness_RegisteredInstructionsAlwaysComplete :
    (∀ op, Instr.halt ≠ .empty op) ∧ step State.reset = .fault (.unimplementedOpcode 0x00#8 0x0100#16) :=
  ⟨(by intro _ h; cases h), rfl⟩

/-- A bus with ROM below 0x8000, a device at 0xFF00 and above, RAM between: what a cartridge system might have. -/
def platformBus : Bus := { map := [⟨0x0000#16, 0x8000, .rom⟩, ⟨0xFF00#16, 0x100, .device 0⟩], mem := [], deviceLog := [] }

/-- On the reference bus and at RAM; at a device and at ROM the clause with the premise says nothing. -/
theorem witness_StoreRegToMemory :
    loadBase.bus.mem.wf = true ∧ loadBase.bus.part loadBase.hlAddress = .ram ∧ platformBus.isDevice 0xC000#16 = false := by decide

/-- Both stack addresses, at the wrap, in RAM. -/
theorem witness_CallPushesAndJumps :
    loadBase.bus.mem.wf = true ∧ loadBase.bus.part (dec16 0x0001#16 2) = .ram ∧
    loadBase.bus.part (inc16 (dec16 0x0001#16 2) 1) = .ram := by decide

theorem witness_AdcWithoutCarryIsAdd : ({ State.reset with f := 0xE0#8 } : State).f.getLsbD 4 = false := by decide

/-- Both clauses. -/
theorem witness_JumpIfZeroClear :
    ({ State.reset with f := 0x70#8 } : State).f.getLsbD 7 = false ∧ ({ State.reset with f := 0x80#8 } : State).f.getLsbD 7 = true := by
  decide

/-- CALL 0x0300 at 0x0200 with RET at 0x0300 and the stack across the top of memory. -/
def callState : State := (at200 { State.reset with sp := 0x0001#16 } [0xCD#8, 0x00#8, 0x03#8]).loadImage 0x0300#16 [0xC9#8]

/-- Both clauses: premise (a) holds of the bus after the call, and RAM answers at both stack addresses. -/
theorem witness_CallThenReturnRestores :
    (callState.Running ∧ callState.bus.peek callState.pc = 0xCD#8 ∧ callState.bus.mem.wf = true ∧
      callState.bus.part (callState.sp - 2#16) = .ram ∧ callState.bus.part (callState.sp - 1#16) = .ram) ∧
    ∃ t, step callState = .next t ∧ t.bus.peek t.pc = 0xC9#8 ∧
      (t.bus.read t.pc).2.answers [.read (callState.sp - 2#16) 0x03#8, .read (callState.sp - 1#16) 0x02#8] :=
  ⟨by decide, _, rfl, by decide, by decide, by decide, trivial⟩

theorem witness_InitEstablishesTheInvariant : resetValues.Ok ∧ Memory.wf [(0x0100, 0x76#8), (0xFFFF, 0x01#8)] = true := by decide

theorem witness_StepKeepsTheInvariant : callState.Inv ∧ ∃ t, step callState = .next t := ⟨by decide, _, rfl⟩

theorem witness_ReachableStatesKeepTheLowNibbleClear : Reachable State.reset :=
  .init resetValues (Bus.flat []) (by decide) (by decide)

/-- The four clauses. -/
theorem witness_ControlStateMachine :
    (callState.initialised = true ∧ callState.halted = false ∧ isEmptyByte (callState.bus.peek callState.pc) = false ∧
      callState.bus.peek callState.pc ≠ 0x76#8) ∧
    ((at200 State.reset [0x76#8]).initialised = true ∧ (at200 State.reset [0x76#8]).halted = false ∧
      (at200 State.reset [0x76#8]).bus.peek 0x0200#16 = 0x76#8) ∧
    (State.reset.initialised = true ∧ State.reset.halted = false ∧ isEmptyByte (State.reset.bus.peek State.reset.pc) = true) ∧
    (haltedState.initialised = true ∧ haltedState.halted = true) := by decide

/-- The three cases of the statement. -/
theorem witness_OnlyCallAndReturnMoveSp :
    (∃ t, exec (.callA16 0x0300#16) State.reset = .next t) ∧ (∃ t, exec .ret State.reset = .next t) ∧
    ∃ t, exec .ldAB State.reset = .next t := ⟨⟨_, rfl⟩, ⟨_, rfl⟩, _, rfl⟩

/-- Both clauses, and an F that differs in a bit other than Cf. -/
theorem witness_OnlyAluInstructionsWriteFlags :
    ((∃ t, exec .cpB State.reset = .next t) ∧ Instr.cpB.form.writesFlags = true ∧
      0x50#8 ≠ State.reset.f ∧ (0x50#8).getLsbD 4 = State.reset.f.getLsbD 4) ∧
    (∃ t, exec .ret State.reset = .next t) ∧ Instr.ret.form.writesFlags = false :=
  ⟨⟨⟨_, rfl⟩, rfl, by decide, by decide⟩, ⟨_, rfl⟩, rfl⟩

/-- The three clauses with a premise: a register kept, pc changed, `halted` changed. -/
theorem witness_RegisterFrame :
    ((∃ t, exec .ldAB State.reset = .next t) ∧ Instr.ldAB.form.dest ≠ some .b) ∧
    (∃ t, exec (.jpA16 0x0300#16) State.reset = .next t ∧ t.pc ≠ State.reset.pc) ∧
    ∃ t, exec .halt State.reset = .next t ∧ t.halted ≠ State.reset.halted :=
  ⟨⟨⟨_, rfl⟩, by decide⟩, ⟨_, rfl, by decide⟩, _, rfl, by decide⟩

/-- An address outside the bytes CALL stores, next to them. -/
theorem witness_MemoryFrame :
    (∃ t, exec (.callA16 0x0300#16) State.reset = .next t) ∧
    0xFFFE#16 ∉ storedAddresses State.reset (Instr.callA16 0x0300#16).form := ⟨⟨_, rfl⟩, by decide⟩

theorem witness_ImeIsNeverReadNorWritten : (∃ t, step callState = .next t) ∧ Reachable State.reset :=
  ⟨⟨_, rfl⟩, .init resetValues (Bus.flat []) (by decide) (by decide)⟩

theorem witness_CounterStrictlyIncreases : ∃ t, step callState = .next t := ⟨_, rfl⟩

theorem witness_CounterIsTheSumOfTheCosts : ∃ t, run 2 callState = .next t := ⟨_, rfl⟩

/-- The table of suggested defaults (R177) meets the constraints. -/
def suggestedCycles : CycleEntry → Nat
  | .haltedStep => 4
  | .ldRR => 4
  | .ldRD8 => 8
  | .ldRHL => 8
  | .ldHLR => 8
  | .aluR => 4
  | .aluD8 => 8
  | .aluHL => 8
  | .jp => 16
  | .call => 24
  | .ret => 16
  | .jrTaken => 12
  | .jrNotTaken => 8
  | .halt => 4

theorem witness_CycleTablesAreExactlyTheAllowedOnes : CyclesOk suggestedCycles := by
  constructor
  · intro e; cases e <;> decide
  · intro e; cases e <;> decide
  all_goals decide

/-- The running and the halted clause. -/
theorem witness_BusAccessesFollowTheTable :
    (callState.Running ∧ ∃ t, step callState = .next t) ∧ haltedState.halted = true ∧ ∃ t, step haltedState = .next t :=
  ⟨⟨by decide, _, rfl⟩, rfl, _, rfl⟩

/-- LD A,d8 at 0x0200, and a bus of other parts, with other bytes elsewhere, that answers it alike. -/
theorem witness_StepDependsOnlyOnTheBytesItReads :
    ∃ t, step (at200 State.reset [0x3E#8, 0x99#8]) = .next t ∧
      { platformBus with mem := [(0x0200, 0x3E#8), (0x0201, 0x99#8), (0x0202, 0x76#8)] }.answers t.busLog :=
  ⟨_, rfl, by decide, by decide, trivial⟩

theorem witness_OnlyBusWritesChangeMemory :
    callState.bus.mem.wf = true ∧ (∃ t, step callState = .next t ∧ BusAccess.write 0x0000#16 0x02#8 ∈ t.busLog) ∧
    callState.bus.part 0x0000#16 = .ram ∧ platformBus.part 0x0000#16 ≠ .ram :=
  ⟨by decide, ⟨_, rfl, by decide⟩, by decide, by decide⟩

/-- LD (HL),A at 0x0200 with HL = 0x0201 (L-15). -/
def selfStoreState : State := at200 { loadBase with h := 0x02#8, l := 0x01#8, a := 0x76#8 } [0x77#8]

theorem witness_StoreIsSeenByTheNextFetch :
    selfStoreState.Running ∧ selfStoreState.bus.mem.wf = true ∧
    selfStoreState.bus.part (selfStoreState.pc + 1#16) = .ram ∧
    selfStoreState.bus.peek selfStoreState.pc = BitVec.ofNat 8 (0x70 + Reg8.a.index) ∧
    Claims.hl selfStoreState = selfStoreState.pc + 1#16 := by decide

theorem witness_HaltedRunsNeverFault : EndsHalted (at200 State.reset [0x76#8]) := ⟨1, _, rfl, rfl⟩

/-- Both clauses with a premise. -/
theorem witness_SixteenBitOperandIsLittleEndian :
    (at200 State.reset [0xC3#8]).bus.peek 0x0200#16 = 0xC3#8 ∧ (at200 State.reset [0xCD#8]).bus.peek 0x0200#16 = 0xCD#8 := by
  decide

/-- At the wrap of sp. -/
theorem witness_PopUndoesPush : callState.bus.mem.wf = true ∧ callState.sp = 0x0001#16 ∧
    callState.bus.part (callState.sp - 2#16) = .ram ∧ callState.bus.part (callState.sp - 1#16) = .ram := by decide

/-- The clauses with a premise: the ends of the windows, and a device in the whole address space. -/
theorem witness_BusPartsMeetTheContract :
    Memory.wf [] = true ∧ platformBus.part 0x0000#16 = .rom ∧ platformBus.part 0x7FFF#16 = .rom ∧
    platformBus.part 0x8000#16 = .ram ∧ platformBus.isDevice 0xFEFF#16 = false ∧ platformBus.isDevice 0xFF00#16 = true ∧
    platformBus.isDevice 0xFFFF#16 = true ∧
    ∃ b : Bus, b.map = [⟨0x0000#16, 65536, .device 3⟩] ∧ b.part 0xFFFF#16 = .device 3 := by
  exact ⟨by decide, by decide, by decide, by decide, by decide, by decide, by decide,
    ⟨[⟨0x0000#16, 65536, .device 3⟩], [], []⟩, rfl, by decide⟩

theorem witness_EqualReadsMeanEqualMemories :
    ∃ m m' : Memory, m.wf = true ∧ m'.wf = true ∧ ∀ a : Word, m.read a = m'.read a :=
  ⟨[(5, 1#8)], [(5, 1#8)], by decide, by decide, fun _ => rfl⟩

theorem witness_LoadImagePlacesTheBytes :
    State.reset.bus.mem.wf = true ∧ [0x3E#8, 0x99#8].length ≤ 65536 ∧ [0x3E#8, 0x99#8][1]? = some 0x99#8 := by decide

theorem witness_PlacedWordIsRunNext : State.reset.bus.mem.wf = true ∧ decodeTableWord 8 0x76 = some .halt := by decide

end Sys2Proof.Tests
end

section
/-! SUPPORT. What a completed instruction leaves, said once over the forms, and what a completed step can be. -/

namespace Sys2Proof

/-- The instruction of a form: the inverse of `Instr.form`. -/
def Form.instr : Form → Instr
  | .ldRR dst src => .ldRR dst src
  | .ldRImm dst v => .ldRImm dst v
  | .ldRAtHL dst => .ldRAtHL dst
  | .ldAtHLR src => .ldAtHLR src
  | .aluR op src => .aluR op src
  | .aluAtHL op => .aluAtHL op
  | .aluImm op v => .aluImm op v
  | .jp a16 => .jpA16 a16
  | .call a16 => .callA16 a16
  | .ret => .ret
  | .jr cc v => .jr cc v
  | .halt => .halt
  | .empty op => .empty op

/-- A form, with its operands, tells its instruction (R54). -/
theorem Form.instr_form (i : Instr) : i.form.instr = i := by cases i <;> rfl

theorem Instr.eq_of_form_eq {i : Instr} {fm : Form} (h : i.form = fm) : i = fm.instr := by
  rw [← h, Form.instr_form]

/-- Every registered form has an entry of the CYCLES table. -/
theorem Form.exists_cycleEntry {fm : Form} (taken : Cond → Bool) (hne : ∀ op, fm ≠ .empty op) :
    ∃ e, fm.cycleEntry taken = some e := by
  cases fm with
  | empty op => exact absurd rfl (hne op)
  | _ => exact ⟨_, rfl⟩

namespace Machine

/-- The state a form's meaning leaves where it completes; an EMPTY slot's never does (R55). -/
def completed : Form → State → State
  | .ldRR dst src, s => (s.setReg dst (s.reg src)).tick .ldRR
  | .ldRImm dst v, s => (s.setReg dst v).tick .ldRD8
  | .ldRAtHL dst, s => (s.readAtHL.2.setReg dst s.readAtHL.1).tick .ldRHL
  | .ldAtHLR src, s => (s.writeAtHL (s.reg src)).tick .ldHLR
  | .aluR op src, s => s.aluWriteBack op (s.reg src) .aluR
  | .aluAtHL op, s => s.readAtHL.2.aluWriteBack op s.readAtHL.1 .aluHL
  | .aluImm op v, s => s.aluWriteBack op v .aluD8
  | .jp a16, s => (s.setPc a16).tick .jp
  | .call a16, s => ((s.push16 s.pc).setPc a16).tick .call
  | .ret, s => (s.pop16.2.setPc s.pop16.1).tick .ret
  | .jr cc r8, s =>
    (s.setPc (if s.cond cc then relativeTarget s.pc r8 else s.pc)).tick (if s.cond cc then .jrTaken else .jrNotTaken)
  | .halt, s => { s with halted := true }.tick .halt
  | .empty _, s => s

/-- A registered form completes, in `completed` (R154). -/
theorem execForm_eq_next {fm : Form} (s : State) (hne : ∀ op, fm ≠ .empty op) :
    execForm fm s = .next (completed fm s) := by
  cases fm with
  | empty op => exact absurd rfl (hne op)
  | jr cc r8 =>
    simp only [execForm, jumpRelative, completed]
    split <;> rfl
  | _ => rfl

/-- Inversion of `exec`: an instruction that completes has a registered form and leaves `completed`. -/
theorem exec_eq_next_iff {i : Instr} {s t : State} :
    exec i s = .next t ↔ (∀ op, i.form ≠ .empty op) ∧ t = completed i.form s := by
  rw [exec_eq_execForm]
  constructor
  · intro h
    have hne : ∀ op, i.form ≠ .empty op := by
      intro op hop
      rw [hop] at h
      cases h
    rw [execForm_eq_next s hne] at h
    cases h
    exact ⟨hne, rfl⟩
  · rintro ⟨hne, rfl⟩
    exact execForm_eq_next s hne

/-- Inversion of `step`: a completed step is the halted tick or a completed instruction (R70, R79). -/
theorem step_eq_next {s t : State} (h : step s = .next t) :
    (s.halted = true ∧ t = s.haltedTick) ∨
    (s.halted = false ∧ (∀ op, s.beginStep.fetchInstr.1.form ≠ .empty op) ∧
      t = completed s.beginStep.fetchInstr.1.form s.beginStep.fetchInstr.2) := by
  rcases step_cases s with ⟨-, hs⟩ | ⟨-, hh, hs⟩ | ⟨-, hh, hs⟩
  · rw [hs] at h
    cases h
  · rw [hs] at h
    cases h
    exact .inl ⟨hh, rfl⟩
  · rw [hs, exec_eq_next_iff] at h
    exact .inr ⟨hh, h⟩

/-! ### The fetch: pc, the bus and its record alone change -/

namespace State

variable (s : State)

@[simp] theorem fetchInstr_f : s.fetchInstr.2.f = s.f := by rw [fetchInstr_snd]; rfl
@[simp] theorem fetchInstr_ime : s.fetchInstr.2.ime = s.ime := by rw [fetchInstr_snd]; rfl
@[simp] theorem fetchInstr_cycleCount : s.fetchInstr.2.cycleCount = s.cycleCount := by rw [fetchInstr_snd]; rfl
@[simp] theorem fetchInstr_initialised : s.fetchInstr.2.initialised = s.initialised := by rw [fetchInstr_snd]; rfl

/-- The conditions read F alone (R130). -/
theorem cond_congr {s s' : State} (h : s.f = s'.f) (cc : Cond) : s.cond cc = s'.cond cc := by
  cases cc <;> simp [cond, flag, h]

theorem fetchInstr_mem_wf {s : State} (hw : s.bus.mem.wf = true) : s.fetchInstr.2.bus.mem.wf = true := by
  rw [fetchInstr_snd]
  exact Bus.after_wf hw _

end State

/-! ### The fields of `completed` -/

@[simp] theorem completed_ime (fm : Form) (s : State) : (completed fm s).ime = s.ime := by
  cases fm <;> simp [completed, State.readAtHL, State.writeAtHL, State.push16, State.pop16, State.aluWriteBack_eq]

@[simp] theorem completed_initialised (fm : Form) (s : State) : (completed fm s).initialised = s.initialised := by
  cases fm <;> simp [completed, State.readAtHL, State.writeAtHL, State.push16, State.pop16, State.aluWriteBack_eq]

/-- Only HALT changes `halted` (R19). -/
theorem completed_halted {fm : Form} (s : State) (hne : fm ≠ .halt) : (completed fm s).halted = s.halted := by
  cases fm with
  | halt => exact absurd rfl hne
  | _ => simp [completed, State.readAtHL, State.writeAtHL, State.push16, State.pop16, State.aluWriteBack_eq]

/-- Only CALL and RET move sp (R17). -/
theorem completed_sp (fm : Form) (s : State) : (completed fm s).sp =
    match fm with
    | .call _ => dec16 s.sp 2
    | .ret => inc16 s.sp 2
    | _ => s.sp := by
  cases fm <;> simp [completed, State.readAtHL, State.writeAtHL, State.push16, State.pop16, State.aluWriteBack_eq]

/-- Only the control transfers change pc after the fetch (R18). -/
theorem completed_pc (fm : Form) (s : State) : (completed fm s).pc =
    match fm with
    | .jp a16 => a16
    | .call a16 => a16
    | .ret => s.pop16.1
    | .jr cc r8 => if s.cond cc then relativeTarget s.pc r8 else s.pc
    | _ => s.pc := by
  cases fm <;> simp [completed, State.readAtHL, State.writeAtHL, State.aluWriteBack_eq]

/-- The write-back of an ALU instruction keeps every register but A, and A too for CP (R103). -/
theorem State.aluWriteBack_reg (s : State) {op : AluOp} {r : Reg8} (v : Byte) (e : CycleEntry)
    (h : writesA op = true → r ≠ .a) : (s.aluWriteBack op v e).reg r = s.reg r := by
  rw [State.aluWriteBack, State.tick_reg, State.setFlags_reg]
  split
  · next hw => exact State.reg_setReg_of_ne s _ (h hw)
  · rfl

theorem ne_a_of_aluDest_ne {op : AluOp} {r : Reg8} (h : (if writesA op then some Reg8.a else none) ≠ some r) :
    writesA op = true → r ≠ .a := by
  rintro hw rfl
  simp [hw] at h

/-- A register that is not a form's destination is kept (R25). -/
theorem completed_reg {fm : Form} {r : Reg8} (s : State) (h : fm.dest ≠ some r) :
    (completed fm s).reg r = s.reg r := by
  cases fm with
  | ldRR dst src =>
    have hr : r ≠ dst := fun e => h (by rw [e]; rfl)
    simp [completed, State.reg_setReg_of_ne _ _ hr]
  | ldRImm dst v =>
    have hr : r ≠ dst := fun e => h (by rw [e]; rfl)
    simp [completed, State.reg_setReg_of_ne _ _ hr]
  | ldRAtHL dst =>
    have hr : r ≠ dst := fun e => h (by rw [e]; rfl)
    simp [completed, State.readAtHL, State.reg_setReg_of_ne _ _ hr]
  | aluR op src => exact s.aluWriteBack_reg _ _ (ne_a_of_aluDest_ne h)
  | aluAtHL op =>
    rw [completed, State.aluWriteBack_reg _ _ _ (ne_a_of_aluDest_ne h)]
    exact s.busRead_reg _ r
  | aluImm op v => exact s.aluWriteBack_reg _ _ (ne_a_of_aluDest_ne h)
  | halt => cases r <;> rfl
  | _ => simp [completed, State.writeAtHL, State.push16, State.pop16]

/-- The canonical form of memory outlives every instruction. -/
theorem completed_mem_wf (fm : Form) {s : State} (hw : s.bus.mem.wf = true) : (completed fm s).bus.mem.wf = true := by
  cases fm with
  | ldAtHLR src => exact Bus.write_wf hw _ _
  | call a16 => exact Bus.write_wf (Bus.write_wf hw _ _) _ _
  | _ => simpa [completed, State.readAtHL, State.pop16, State.aluWriteBack_eq] using hw

/-- A form charges its entry of the CYCLES table (R77, R177). -/
theorem completed_cycleCount {fm : Form} {s : State} {e : CycleEntry} (h : fm.cycleEntry s.cond = some e) :
    (completed fm s).cycleCount = s.cycleCount + cycleCost e := by
  cases fm <;> cases h <;>
    simp [completed, State.readAtHL, State.writeAtHL, State.push16, State.pop16, State.aluWriteBack_eq]

/-- No cost is zero (R177). -/
theorem cycleCost_pos (e : CycleEntry) : 0 < cycleCost e := by
  cases e <;> simp only [cycleCost, cycleTable] <;> omega

/-! ### F after an instruction -/

/-- F as an ALU operation writes it, from A, the operand and the carry-in. -/
def aluFlags (op : AluOp) (a v : Byte) (carry : Bool) : Byte :=
  let r := aluCompute op a v carry
  flagsByte r.z r.n r.h r.c

theorem State.aluWriteBack_f (s : State) (op : AluOp) (v : Byte) (e : CycleEntry) :
    (s.aluWriteBack op v e).f = aluFlags op s.a v (s.flag .c) := by
  rw [State.aluWriteBack_eq]
  rfl

/-- A form other than the ALU's leaves F alone (R16). -/
theorem completed_f_of_not_writesFlags {fm : Form} (s : State) (h : fm.writesFlags = false) :
    (completed fm s).f = s.f := by
  cases fm with
  | aluR | aluAtHL | aluImm => cases h
  | _ => simp [completed, State.readAtHL, State.writeAtHL, State.push16, State.pop16]

/-- An ALU form's F is its operation's, and of the old F the carry flag alone enters it (R15, R103). -/
theorem completed_f_of_writesFlags {fm : Form} (s : State) (h : fm.writesFlags = true) :
    ∃ op v, ∀ f', (completed fm { s with f := f' }).f = aluFlags op s.a v (f'.getLsbD 4) := by
  cases fm with
  | aluR op src =>
    refine ⟨op, s.reg src, fun f' => ?_⟩
    rw [completed, State.aluWriteBack_f]
    cases src <;> rfl
  | aluAtHL op => exact ⟨op, s.bus.peek s.hlAddress, fun f' => State.aluWriteBack_f ..⟩
  | aluImm op v => exact ⟨op, v, fun f' => State.aluWriteBack_f ..⟩
  | _ => cases h

/-- No instruction sets a bit of the low nibble of F (R14). -/
theorem completed_f_lowNibble (fm : Form) {s : State} (hf : s.f.extractLsb' 0 4 = 0#4) :
    (completed fm s).f.extractLsb' 0 4 = 0#4 := by
  cases h : fm.writesFlags with
  | false => rwa [completed_f_of_not_writesFlags s h]
  | true =>
    obtain ⟨op, v, hf'⟩ := completed_f_of_writesFlags s h
    rw [show (completed fm s).f = _ from hf' s.f]
    exact flagsByte_lowNibble ..

/-! ### The invariant -/

theorem completed_inv (fm : Form) {s : State} (h : s.Inv) : (completed fm s).Inv := by
  obtain ⟨hf, hime, hwf, hinit⟩ := h
  exact ⟨completed_f_lowNibble fm hf, by simpa using hime, completed_mem_wf fm hwf, by simpa using hinit⟩

theorem State.fetchInstr_inv {s : State} (h : s.Inv) : s.fetchInstr.2.Inv := by
  obtain ⟨hf, hime, hwf, hinit⟩ := h
  exact ⟨by simpa using hf, by simpa using hime, State.fetchInstr_mem_wf hwf, by simpa using hinit⟩

theorem step_inv {s t : State} (hs : s.Inv) (h : step s = .next t) : t.Inv := by
  rcases step_eq_next h with ⟨-, rfl⟩ | ⟨-, -, rfl⟩
  · exact hs
  · exact completed_inv _ (State.fetchInstr_inv (s := s.beginStep) hs)

/-- `init` with legal parameters makes the invariant (R14, R20, R23). -/
theorem State.init_inv {p : ResetParams} {b : Bus} (hp : p.Ok) (hw : b.mem.wf = true) : (State.init p b).Inv :=
  ⟨hp, rfl, hw, rfl⟩

/-- The invariant in every reachable state: by the steps, and by the bus owner, who touches the bus alone. -/
theorem reachable_inv {s : State} (h : Reachable s) : s.Inv := by
  induction h with
  | init p b hp hw => exact State.init_inv hp hw
  | step s t _ hst ih => exact step_inv ih hst
  | owner s b _ hw ih =>
    obtain ⟨hf, hime, -, hinit⟩ := ih
    exact ⟨hf, hime, hw, hinit⟩

end Machine
end Sys2Proof
end

section
/-! SUPPORT. Nothing reads `ime` (R20): every shared operation, and so the step, runs alike whatever `ime` holds. -/

namespace Sys2Proof.Machine

open Claims

theorem State.reg_withIme (s : State) (v : Bool) (r : Reg8) : { s with ime := v }.reg r = s.reg r := by cases r <;> rfl

theorem State.setReg_withIme (s : State) (v : Bool) (r : Reg8) (x : Byte) :
    { s with ime := v }.setReg r x = { s.setReg r x with ime := v } := by cases r <;> rfl

theorem State.cond_withIme (s : State) (v : Bool) (cc : Cond) : { s with ime := v }.cond cc = s.cond cc :=
  State.cond_congr rfl cc

theorem State.aluWriteBack_withIme (s : State) (v : Bool) (op : AluOp) (x : Byte) (e : CycleEntry) :
    { s with ime := v }.aluWriteBack op x e = { s.aluWriteBack op x e with ime := v } := by
  simp only [State.aluWriteBack_eq]
  rfl

theorem State.fetchInstr_withIme (s : State) (v : Bool) :
    { s with ime := v }.fetchInstr = (s.fetchInstr.1, { s.fetchInstr.2 with ime := v }) := by
  simp only [State.fetchInstr, State.fetch8_eq]
  cases decodeOpcode (s.bus.peek s.pc) <;> rfl

theorem completed_withIme (fm : Form) (s : State) (v : Bool) :
    completed fm { s with ime := v } = { completed fm s with ime := v } := by
  cases fm with
  | ldRR dst src =>
    rw [completed, State.reg_withIme, State.setReg_withIme]
    rfl
  | ldRImm dst x =>
    rw [completed, State.setReg_withIme]
    rfl
  | ldRAtHL dst => exact congrArg (State.tick · .ldRHL) (State.setReg_withIme s.readAtHL.2 v dst _)
  | ldAtHLR src =>
    rw [completed, State.reg_withIme]
    rfl
  | aluR op src =>
    rw [completed, State.reg_withIme, State.aluWriteBack_withIme]
    rfl
  | aluAtHL op => exact State.aluWriteBack_withIme s.readAtHL.2 v op _ _
  | aluImm op x => exact State.aluWriteBack_withIme ..
  | jr cc r8 =>
    rw [completed, State.cond_withIme]
    rfl
  | _ => rfl

theorem exec_withIme (i : Instr) (s : State) (v : Bool) :
    exec i { s with ime := v } = mapNext (fun t => { t with ime := v }) (exec i s) := by
  rw [exec_eq_execForm, exec_eq_execForm]
  cases hfm : i.form with
  | empty op => rfl
  | _ =>
    rw [execForm_eq_next _ (by simp), execForm_eq_next _ (by simp), completed_withIme]
    rfl

theorem step_withIme (s : State) (v : Bool) :
    step { s with ime := v } = mapNext (fun t => { t with ime := v }) (step s) := by
  unfold step
  split
  · split
    · rfl
    · rw [← exec_withIme, show ({ s with ime := v } : State).beginStep = { s.beginStep with ime := v } from rfl,
        State.fetchInstr_withIme]
  · rfl

/-- A completed step keeps `ime` (R20). -/
theorem step_ime {s t : State} (h : step s = .next t) : t.ime = s.ime := by
  rcases step_eq_next h with ⟨-, rfl⟩ | ⟨-, -, rfl⟩
  · rfl
  · simp

end Sys2Proof.Machine
end

section
/-! SUPPORT. Flags, single flags and register pairs as bits of a byte and bytes of a word. -/

namespace Sys2Proof

theorem Flag.bit_lt (k : Flag) : k.bit < 8 := by cases k <;> decide

namespace Machine

open Claims

/-- F as R15 assembles it is the sum of R13. -/
theorem flagsByte_eq_flagsValue (z n h c : Bool) : flagsByte z n h c = flagsValue z n h c := by
  cases z <;> cases n <;> cases h <;> cases c <;> rfl

/-- The mask of a flag has that flag's bit and no other flag's. -/
theorem flagBit_getLsbD (k k' : Flag) : (flagBit true k.bit).getLsbD k'.bit = decide (k' = k) := by
  cases k <;> cases k' <;> rfl

theorem flagBit_lowNibble (k : Flag) : (flagBit true k.bit).extractLsb' 0 4 = 0#4 := by cases k <;> rfl

namespace State

variable (s : State)

theorem flag_setFlag (k k' : Flag) : (s.setFlag k).flag k' = (decide (k' = k) || s.flag k') := by
  rw [flag, setFlag, BitVec.getLsbD_or, flagBit_getLsbD, Bool.or_comm, flag]

theorem flag_clearFlag (k k' : Flag) : (s.clearFlag k).flag k' = (!decide (k' = k) && s.flag k') := by
  rw [flag, clearFlag, BitVec.getLsbD_and, BitVec.getLsbD_not, flagBit_getLsbD, Bool.and_comm, flag]
  simp only [k'.bit_lt, decide_true, Bool.true_and]

theorem setFlag_lowNibble (k : Flag) : (s.setFlag k).f.extractLsb' 0 4 = s.f.extractLsb' 0 4 := by
  simp [setFlag, BitVec.extractLsb'_or, flagBit_lowNibble]

theorem clearFlag_lowNibble (k : Flag) : (s.clearFlag k).f.extractLsb' 0 4 = s.f.extractLsb' 0 4 := by
  rw [clearFlag, BitVec.extractLsb'_and, BitVec.extractLsb'_not_of_lt (by decide), flagBit_lowNibble]
  exact BitVec.and_allOnes

end State

/-- A word by its bytes, as a number (R7). -/
theorem wordOf_toNat (hi lo : Byte) : (wordOf hi lo).toNat = 256 * hi.toNat + lo.toNat := by
  rw [wordOf, BitVec.toNat_append, ← Nat.shiftLeft_add_eq_or_of_lt lo.isLt, Nat.shiftLeft_eq, Nat.mul_comm]

/-- A mask of the low byte is a mask of the word. -/
theorem wordOf_and_low (hi lo m : Byte) : wordOf hi (lo &&& m) = wordOf hi lo &&& wordOf 0xFF#8 m := by
  rw [wordOf, wordOf, wordOf, BitVec.and_append]
  congr 1
  exact BitVec.and_allOnes.symm

theorem State.pair_setPair_af (s : State) (v : Word) : (s.setPair .af v).pair .af = v &&& 0xFFF0#16 := by
  show wordOf (highByte v) (lowByte v &&& 0xF0#8) = _
  rw [wordOf_and_low, wordOf_high_low]
  rfl

end Machine
end Sys2Proof
end

section
/-! The obligations of 10_state.md. -/

namespace Sys2Proof.Proofs

open Machine Claims

/-- Settles O34: fetch and instruction each keep the four parts of the invariant. -/
theorem stepKeepsTheInvariant : Obligations.StepKeepsTheInvariant := fun _ _ => step_inv

/-- Settles O35, by induction on reachability. -/
theorem reachableStatesKeepTheLowNibbleClear : Obligations.ReachableStatesKeepTheLowNibbleClear := fun _ hs =>
  have hinv := reachable_inv hs
  ⟨hinv.left, hinv⟩

/-- Settles O37, from sp after each form. -/
theorem onlyCallAndReturnMoveSp : Obligations.OnlyCallAndReturnMoveSp := by
  intro i s t h
  obtain ⟨-, rfl⟩ := exec_eq_next_iff.1 h
  rw [completed_sp]
  cases i.form <;> rfl

/-- Settles O38: an ALU form's F is a function of the operation, A, the operand and the carry flag. -/
theorem onlyAluInstructionsWriteFlags : Obligations.OnlyAluInstructionsWriteFlags := by
  intro i s t h
  obtain ⟨hne, rfl⟩ := exec_eq_next_iff.1 h
  refine ⟨completed_f_of_not_writesFlags s, fun hw => ?_⟩
  obtain ⟨op, v, hf⟩ := completed_f_of_writesFlags s hw
  have hs : (completed i.form s).f = aluFlags op s.a v (s.f.getLsbD 4) := hf s.f
  refine ⟨⟨_, _, _, _, hs.trans (flagsByte_eq_flagsValue ..)⟩, fun f' hcarry => ?_⟩
  exact ⟨_, exec_eq_next_iff.2 ⟨hne, rfl⟩, by rw [hf, hcarry, hs]⟩

/-- Settles O39, from the registers, pc and `halted` after each form. -/
theorem registerFrame : Obligations.RegisterFrame := by
  intro i s t h
  obtain ⟨-, rfl⟩ := exec_eq_next_iff.1 h
  refine ⟨fun r => completed_reg s, fun hpc => ?_, fun hhalted => ?_, completed_initialised ..⟩
  · rw [completed_pc] at hpc
    cases hfm : i.form with
    | jp w => exact .inl ⟨w, Instr.eq_of_form_eq hfm⟩
    | call w => exact .inr (.inl ⟨w, Instr.eq_of_form_eq hfm⟩)
    | ret => exact .inr (.inr (.inl (Instr.eq_of_form_eq hfm)))
    | jr cc v => exact .inr (.inr (.inr ⟨cc, v, Instr.eq_of_form_eq hfm⟩))
    | _ => simp [hfm] at hpc
  · by_contra hi
    exact hhalted (completed_halted s fun hfm => hi (Instr.eq_of_form_eq hfm))

/-- Settles O41: the step is the same whatever `ime` holds, and the invariant has it clear. -/
theorem imeIsNeverReadNorWritten : Obligations.ImeIsNeverReadNorWritten :=
  ⟨fun _ _ => step_ime, step_withIme, fun _ hs =>
    have ⟨_, hime, _⟩ := reachable_inv hs
    hime⟩

/-- Settles O43: the halted tick and every form charge their entry, and no entry is zero. -/
theorem counterStrictlyIncreases : Obligations.CounterStrictlyIncreases := by
  intro s t h
  rcases step_eq_next h with ⟨hh, rfl⟩ | ⟨hh, hne, rfl⟩
  · have hcost : stepCost s = cycleCost .haltedStep := by simp [stepCost, hh]
    rw [hcost]
    exact ⟨rfl, Nat.lt_add_of_pos_right (cycleCost_pos _)⟩
  · obtain ⟨e, he⟩ := Form.exists_cycleEntry s.cond hne
    have hcost : stepCost s = cycleCost e := by simp [stepCost, hh, he]
    have hcond : s.beginStep.fetchInstr.2.cond = s.cond := funext (State.cond_congr (by simp))
    rw [completed_cycleCount (hcond ▸ he), hcost]
    simp [cycleCost_pos]

/-- Settles O33: each part of the invariant is a field `init` sets; the suggested parameters are legal. -/
theorem initEstablishesTheInvariant : Obligations.InitEstablishesTheInvariant :=
  ⟨fun _ _ => State.init_inv, State.init_inv (by decide) rfl⟩

/-- Settles O51, by the bits of the byte R15 assembles. -/
theorem setFlagsWritesAllFour : Obligations.SetFlagsWritesAllFour := fun s z n h c =>
  ⟨by rw [← flagsByte_eq_flagsValue]; rfl, flagsByte_bits z n h c⟩

/-- Settles O52: the mask of a flag has its bit and no other. -/
theorem singleFlagOperations : Obligations.SingleFlagOperations := fun s k k' =>
  ⟨s.flag_setFlag k k', s.flag_clearFlag k k', s.setFlag_lowNibble k, s.clearFlag_lowNibble k, rfl, rfl⟩

/-- Settles O53: a pair is the word of its two bytes, and a word is that of its own. -/
theorem pairsAreViews : Obligations.PairsAreViews := fun s v =>
  ⟨wordOf_toNat .., wordOf_toNat .., wordOf_toNat .., wordOf_toNat .., wordOf_high_low v, wordOf_high_low v,
    wordOf_high_low v, s.pair_setPair_af v, rfl, rfl, rfl, rfl⟩

end Sys2Proof.Proofs
end

section
/-! SUPPORT. What the slots of the dispatch table build: the opcode byte and the length of the instruction fetched. -/

namespace Sys2Proof

open Machine

/-- Whatever its operand, what the slot of an opcode byte builds has that byte and the slot's length (R54, R56). -/
def Slot.Builds (op : Byte) : Slot → Prop
  | .empty => True
  | .op i => i.opcode = op ∧ i.length = 1
  | .opD8 build => ∀ v, (build v).opcode = op ∧ (build v).length = 2
  | .opR8 build => ∀ v, (build v).opcode = op ∧ (build v).length = 2
  | .opA16 build => ∀ w, (build w).opcode = op ∧ (build w).length = 3

/-- The slots of a part of the table that begins at opcode byte `n` build that byte and those after it. -/
def SlotsBuild : Nat → List Slot → Prop
  | _, [] => True
  | n, slot :: rest => slot.Builds (BitVec.ofNat 8 n) ∧ SlotsBuild (n + 1) rest

theorem SlotsBuild.getD {n : Nat} {slots : List Slot} (h : SlotsBuild n slots) (k : Nat) :
    (slots.getD k .empty).Builds (BitVec.ofNat 8 (n + k)) := by
  induction slots generalizing n k with
  | nil => trivial
  | cons slot rest ih =>
    obtain ⟨hslot, hrest⟩ := h
    cases k with
    | zero => exact hslot
    | succ k =>
      rw [List.getD_cons_succ, show n + (k + 1) = n + 1 + k by omega]
      exact ih hrest k

/-- The 256 slots, one by one; an operand stays a variable. -/
theorem dispatchTable_builds : SlotsBuild 0 dispatchTable := by
  repeat' constructor
  all_goals exact fun _ => ⟨rfl, rfl⟩

theorem decodeOpcode_builds (op : Byte) : (decodeOpcode op).Builds op := by
  simpa [decodeOpcode] using dispatchTable_builds.getD op.toNat

/-- LD (HL),r by its opcode byte (R54). -/
theorem decodeOpcode_ldAtHLR (r : Reg8) : decodeOpcode (BitVec.ofNat 8 (0x70 + r.index)) = .op (.ldAtHLR r) := by
  cases r <;> rfl

/-- The length of a form's instruction (R54, R56). -/
def Form.length : Form → Nat
  | .ldRImm _ _ | .aluImm _ _ | .jr _ _ => 2
  | .jp _ | .call _ => 3
  | _ => 1

theorem Instr.length_eq_form_length (i : Instr) : i.length = i.form.length := by cases i <;> rfl

namespace Machine.State

variable (s : State)

/-- The opcode byte of the instruction fetched is the byte at pc (R72). -/
theorem fetchInstr_opcode : s.fetchInstr.1.opcode = s.bus.peek s.pc := by
  have h := decodeOpcode_builds (s.bus.peek s.pc)
  simp only [fetchInstr, fetch8_eq]
  split <;> simp_all [Slot.Builds, Instr.opcode]

/-- As many bytes are fetched as the instruction has (R56, R75). -/
theorem fetchInstr_length : (decodeOpcode (s.bus.peek s.pc)).length = s.fetchInstr.1.form.length := by
  have h := decodeOpcode_builds (s.bus.peek s.pc)
  rw [← Instr.length_eq_form_length]
  simp only [fetchInstr, fetch8_eq]
  split <;> simp_all [Slot.Builds, Slot.length, Instr.length, Instr.operands]

end Machine.State
end Sys2Proof
end

section
/-! SUPPORT. A list of bus accesses: the addresses it writes to, and what it does to memory, to the devices and to a bus of another
kind (R37, R43). -/

namespace Sys2Proof.Machine

/-- The addresses a list of accesses writes to, in order. -/
def writtenAddresses : List BusAccess → List Word
  | [] => []
  | .read _ _ :: rest => writtenAddresses rest
  | .write a _ :: rest => a :: writtenAddresses rest

theorem mem_writtenAddresses {log : List BusAccess} {a : Word} :
    a ∈ writtenAddresses log ↔ ∃ v, BusAccess.write a v ∈ log := by
  induction log with
  | nil => simp [writtenAddresses]
  | cons x rest ih => cases x <;> simp [writtenAddresses, ih, exists_or]

theorem writtenAddresses_append (l l' : List BusAccess) :
    writtenAddresses (l ++ l') = writtenAddresses l ++ writtenAddresses l' := by
  induction l with
  | nil => rfl
  | cons x rest ih => cases x <;> simp [writtenAddresses, ih]

namespace Bus

theorem writtenAddresses_readsFrom (b : Bus) (a : Word) (k : Nat) : writtenAddresses (b.readsFrom a k) = [] := by
  induction k generalizing b a with
  | zero => rfl
  | succ k ih => exact ih _ _

variable {b : Bus}

@[simp] theorem part_after (log : List BusAccess) (a : Word) : (b.after log).part a = b.part a := by
  rw [part, after_map, part]

@[simp] theorem isDevice_after (log : List BusAccess) (a : Word) : (b.after log).isDevice a = b.isDevice a := by
  simp [isDevice]

/-- A byte no access writes to is kept (R37). -/
theorem after_mem_read_of_not_written {log : List BusAccess} {a : Word} (h : a ∉ writtenAddresses log) :
    (b.after log).mem.read a = b.mem.read a := by
  induction log generalizing b with
  | nil => rfl
  | cons x rest ih =>
    cases x with
    | read a' v => rw [after_read, ih h, read_mem]
    | write a' v =>
      obtain ⟨hne, hrest⟩ := not_or.1 (mt List.mem_cons.2 h)
      rw [after_write, ih hrest, write_mem_read_of_ne v hne]

theorem peek_after_of_not_written {log : List BusAccess} {a : Word} (hd : b.isDevice a = false)
    (h : a ∉ writtenAddresses log) : (b.after log).peek a = b.peek a := by
  rw [peek_of_memory (by simpa using hd), peek_of_memory hd, after_mem_read_of_not_written h]

/-- Where RAM does not answer, no access changes the byte of memory (R43). -/
theorem after_mem_read_of_not_ram {a : Word} (log : List BusAccess) (h : b.part a ≠ .ram) :
    (b.after log).mem.read a = b.mem.read a := by
  induction log generalizing b with
  | nil => rfl
  | cons x rest ih =>
    cases x with
    | read a' v => rw [after_read, ih (by simpa using h), read_mem]
    | write a' v =>
      rw [after_write, ih (by simpa using h), write_mem]
      split
      · next hram => exact Memory.read_write_of_ne _ v fun e => h (e ▸ hram)
      · rfl

/-- A byte of RAM that is written once holds the value written (R37). -/
theorem after_mem_read_of_written {log : List BusAccess} {a : Word} {v : Byte} (hw : b.mem.wf = true)
    (hram : b.part a = .ram) (honce : (writtenAddresses log).Nodup) (h : BusAccess.write a v ∈ log) :
    (b.after log).mem.read a = v := by
  induction log generalizing b with
  | nil => cases h
  | cons x rest ih =>
    cases x with
    | read a' v' => exact ih (by simpa using hw) (by simpa using hram) honce (by simpa using h)
    | write a' v' =>
      obtain ⟨hfirst, hrest⟩ := List.nodup_cons.1 honce
      rcases List.mem_cons.1 h with heq | hmem
      · cases heq
        rw [after_write, after_mem_read_of_not_written hfirst, write_mem, if_pos hram, Memory.read_write_same hw]
      · exact ih (write_wf hw a' v') (by simpa using hram) hrest hmem

/-- The devices see the accesses at their addresses, in order (R43). -/
theorem after_deviceLog {log : List BusAccess} (h : b.answers log) :
    (b.after log).deviceLog = b.deviceLog ++ log.filter (Claims.atDevice b) := by
  induction log generalizing b with
  | nil => simp
  | cons x rest ih =>
    have hpart (b' : Bus) (hd : ∀ a, b'.isDevice a = b.isDevice a) : Claims.atDevice b' = Claims.atDevice b :=
      funext fun y => by cases y <;> exact hd _
    cases x with
    | read a v =>
      obtain ⟨rfl, hrest⟩ := h
      rw [after_read, ih hrest, hpart _ (isDevice_read b a), List.filter_cons, Claims.atDevice, read, note_deviceLog]
      split <;> simp
    | write a v =>
      rw [after_write, ih h, hpart _ (isDevice_write b a v), List.filter_cons, Claims.atDevice, write_deviceLog]
      split <;> simp

/-- A bus that answers the reads of another as that one does makes the same reads. -/
theorem readsFrom_of_answers {b' : Bus} {a : Word} {k : Nat} (h : b'.answers (b.readsFrom a k)) :
    b'.readsFrom a k = b.readsFrom a k := by
  induction k generalizing b b' a with
  | zero => rfl
  | succ k ih =>
    obtain ⟨hbyte, hrest⟩ := h
    rw [readsFrom, readsFrom, hbyte, ih hrest]

end Bus
end Sys2Proof.Machine
end

section
/-! SUPPORT. The bus accesses of an instruction, by its form, and that they are all it does to the bus and all it learns of it
(R37, R39). -/

namespace Sys2Proof.Machine

/-- The accesses a form's meaning makes, in order, after the fetch (R39). -/
def dataAccesses (s : State) : Form → List BusAccess
  | .ldRAtHL _ | .aluAtHL _ => [.read s.hlAddress (s.bus.peek s.hlAddress)]
  | .ldAtHLR src => [.write s.hlAddress (s.reg src)]
  | .call _ => [.write (dec16 s.sp 2) (lowByte s.pc), .write (inc16 (dec16 s.sp 2) 1) (highByte s.pc)]
  | .ret => s.bus.readsFrom s.sp 2
  | .ldRR _ _ | .ldRImm _ _ | .aluR _ _ | .aluImm _ _ | .jp _ | .jr _ _ | .halt | .empty _ => []

theorem writtenAddresses_dataAccesses (s : State) (fm : Form) :
    writtenAddresses (dataAccesses s fm) = storedAddresses s fm := by cases fm <;> rfl

/-- CALL stores at two addresses. -/
theorem storedAddresses_nodup (s : State) (fm : Form) : (storedAddresses s fm).Nodup := by
  cases fm with
  | call a16 =>
    have hne : dec16 s.sp 2 ≠ inc16 (dec16 s.sp 2) 1 := by
      rw [inc16]
      bv_omega
    simp [storedAddresses, hne]
  | _ => simp [storedAddresses]

theorem answers_dataAccesses (s : State) (fm : Form) : s.bus.answers (dataAccesses s fm) := by
  cases fm with
  | ldRAtHL | aluAtHL => exact ⟨rfl, trivial⟩
  | ret => exact Bus.answers_readsFrom ..
  | _ => trivial

theorem completed_busLog (fm : Form) (s : State) : (completed fm s).busLog = s.busLog ++ dataAccesses s fm := by
  cases fm with
  | ldRAtHL dst => simp [completed, dataAccesses, State.readAtHL]
  | ldAtHLR src => rfl
  | aluAtHL op => simp [completed, dataAccesses, State.readAtHL, State.aluWriteBack_eq]
  | call a16 => simp [completed, dataAccesses, State.push16_eq]
  | ret =>
    simp only [completed, State.pop16_eq]
    rfl
  | _ => simp [completed, dataAccesses, State.aluWriteBack_eq]

theorem State.reg_withBus (s : State) (b : Bus) (r : Reg8) : { s with bus := b }.reg r = s.reg r := by cases r <;> rfl

theorem State.setReg_withBus (s : State) (b : Bus) (r : Reg8) (x : Byte) :
    { s with bus := b }.setReg r x = { s.setReg r x with bus := b } := by cases r <;> rfl

theorem State.cond_withBus (s : State) (b : Bus) (cc : Cond) : { s with bus := b }.cond cc = s.cond cc :=
  State.cond_congr rfl cc

theorem State.readAtHL_withBus {s : State} {b : Bus} (h : b.peek s.hlAddress = s.bus.peek s.hlAddress) :
    { s with bus := b }.readAtHL = (s.readAtHL.1, { s.readAtHL.2 with bus := (b.read s.hlAddress).2 }) := by
  refine Prod.ext h ?_
  rw [State.readAtHL_snd, State.readAtHL_snd]
  simp only [State.hlAddress_def] at h ⊢
  rw [h]

theorem State.pop16_withBus {s : State} {b : Bus} (hlow : b.peek s.sp = s.bus.peek s.sp)
    (hhigh : (b.read s.sp).2.peek (inc16 s.sp 1) = (s.bus.read s.sp).2.peek (inc16 s.sp 1)) :
    { s with bus := b }.pop16 =
      (s.pop16.1, { s.pop16.2 with bus := ((b.read s.sp).2.read (inc16 s.sp 1)).2 }) := by
  simp only [State.pop16_eq, hlow, hhigh]

theorem State.aluWriteBack_withBus (s : State) (b : Bus) (op : AluOp) (x : Byte) (e : CycleEntry) :
    { s with bus := b }.aluWriteBack op x e = { s.aluWriteBack op x e with bus := b } := by
  simp only [State.aluWriteBack_eq]
  rfl

/-- On any bus that answers its reads alike an instruction does the same, and leaves that bus as its accesses do. -/
theorem completed_withBus {fm : Form} {s : State} {b : Bus} (h : b.answers (dataAccesses s fm)) :
    completed fm { s with bus := b } = { completed fm s with bus := b.after (dataAccesses s fm) } := by
  cases fm with
  | ldRR dst src =>
    rw [completed, State.reg_withBus, State.setReg_withBus]
    rfl
  | ldRImm dst x =>
    rw [completed, State.setReg_withBus]
    rfl
  | ldRAtHL dst =>
    obtain ⟨hbyte, -⟩ := h
    rw [completed, State.readAtHL_withBus hbyte, State.setReg_withBus]
    rfl
  | ldAtHLR src =>
    rw [completed, State.reg_withBus]
    rfl
  | aluR op src =>
    rw [completed, State.reg_withBus, State.aluWriteBack_withBus]
    rfl
  | aluAtHL op =>
    obtain ⟨hbyte, -⟩ := h
    rw [completed, State.readAtHL_withBus hbyte, State.aluWriteBack_withBus]
    rfl
  | aluImm op x => exact State.aluWriteBack_withBus ..
  | jr cc r8 =>
    rw [completed, State.cond_withBus]
    rfl
  | ret =>
    obtain ⟨hlow, hhigh, -⟩ := h
    rw [completed, State.pop16_withBus hlow hhigh]
    rfl
  | _ => rfl

end Sys2Proof.Machine
end

section
/-! SUPPORT. The bus accesses of a whole step (R39, R70). -/

namespace Sys2Proof.Machine

/-- The reads that fetch the instruction at pc (R72, R75). -/
def fetchReads (s : State) : List BusAccess := s.bus.readsFrom s.pc s.fetchInstr.1.form.length

/-- The accesses of a step: none when halted, else the fetch and then the instruction's own (R39, R71). -/
def stepAccesses (s : State) : List BusAccess :=
  if s.halted then [] else fetchReads s.beginStep ++ dataAccesses s.beginStep.fetchInstr.2 s.beginStep.fetchInstr.1.form

theorem State.fetchInstr_snd_eq (s : State) : s.fetchInstr.2 = s.afterFetch s.fetchInstr.1.form.length := by
  rw [State.fetchInstr_snd, State.fetchInstr_length]

theorem State.fetchInstr_bus (s : State) : s.fetchInstr.2.bus = s.bus.after (fetchReads s) := by
  rw [State.fetchInstr_snd_eq]
  rfl

theorem State.fetchInstr_busLog (s : State) : s.fetchInstr.2.busLog = s.busLog ++ fetchReads s := by
  rw [State.fetchInstr_snd_eq]
  rfl

/-- On any bus that answers its reads alike the fetch is the same, and leaves that bus as its reads do. -/
theorem State.fetchInstr_withBus {s : State} {b : Bus} (h : b.answers (fetchReads s)) :
    { s with bus := b }.fetchInstr = (s.fetchInstr.1, { s.fetchInstr.2 with bus := b.after (fetchReads s) }) := by
  rw [fetchReads, ← State.fetchInstr_length] at h ⊢
  have hreads := Bus.readsFrom_of_answers h
  have hop : b.peek s.pc = s.bus.peek s.pc := by
    cases hslot : decodeOpcode (s.bus.peek s.pc) <;> rw [hslot] at h <;> exact h.1
  refine Prod.ext ?_ ?_
  · simp only [State.fetchInstr, State.fetch8_eq, State.fetch16_eq, hop]
    cases hslot : decodeOpcode (s.bus.peek s.pc) with
    | empty | op i => rfl
    | opD8 build | opR8 build =>
      rw [hslot] at h
      obtain ⟨-, hbyte, -⟩ := h
      exact congrArg build hbyte
    | opA16 build =>
      rw [hslot] at h
      obtain ⟨-, hlow, hhigh, -⟩ := h
      exact congrArg build (congrArg₂ wordOf hhigh hlow)
  · simp only [State.fetchInstr_snd, hop, State.afterFetch, hreads]

theorem State.fetchInstr_of_op {s : State} {i : Instr} (h : decodeOpcode (s.bus.peek s.pc) = .op i) :
    s.fetchInstr = (i, s.fetch8.2) := by
  simp [State.fetchInstr, State.fetch8_eq, h]

/-- A row of R39 is the fetch of the form's length, then the form's own accesses. -/
theorem accessTable_eq (b : Bus) (p : Word) (s : State) (fm : Form) :
    accessTable p s.sp s.hlAddress fm = (b.readsFrom p fm.length ++ dataAccesses s fm).map accessShape := by
  cases fm with
  | call a16 =>
    have hlow : dec16 s.sp 2 = s.sp - 2#16 := rfl
    have hhigh : inc16 (s.sp - 2#16) 1 = s.sp - 1#16 := by
      rw [inc16]
      bv_omega
    simp [accessTable, Form.length, Bus.readsFrom, dataAccesses, accessShape, BitVec.add_assoc, hlow, hhigh]
  | _ => simp [accessTable, Form.length, Bus.readsFrom, dataAccesses, accessShape, BitVec.add_assoc]

theorem step_of_halted {s : State} (hinit : s.initialised = true) (hh : s.halted = true) : step s = .next s.haltedTick := by
  simp [step, hinit, hh]

theorem step_of_running {s : State} (h : s.Running) :
    step s = exec s.beginStep.fetchInstr.1 s.beginStep.fetchInstr.2 := by
  obtain ⟨hinit, hhalted⟩ := h
  simp [step, hinit, hhalted]

theorem stepAccesses_of_halted {s : State} (h : s.halted = true) : stepAccesses s = [] := by simp [stepAccesses, h]

theorem stepAccesses_of_running {s : State} (h : s.halted = false) : stepAccesses s =
    fetchReads s.beginStep ++ dataAccesses s.beginStep.fetchInstr.2 s.beginStep.fetchInstr.1.form := by
  simp [stepAccesses, h]

theorem step_busLog {s t : State} (h : step s = .next t) : t.busLog = stepAccesses s := by
  rcases step_eq_next h with ⟨hh, rfl⟩ | ⟨hh, -, rfl⟩
  · rw [stepAccesses_of_halted hh]
    rfl
  · rw [stepAccesses_of_running hh, completed_busLog, State.fetchInstr_busLog]
    rfl

theorem answers_stepAccesses (s : State) : s.bus.answers (stepAccesses s) := by
  cases hh : s.halted with
  | true =>
    rw [stepAccesses_of_halted hh]
    trivial
  | false =>
    rw [stepAccesses_of_running hh, Bus.answers_append]
    refine ⟨Bus.answers_readsFrom .., ?_⟩
    rw [← State.beginStep_bus, ← State.fetchInstr_bus]
    exact answers_dataAccesses ..

/-- No address is written twice in a step. -/
theorem stepAccesses_write_once (s : State) : (writtenAddresses (stepAccesses s)).Nodup := by
  cases hh : s.halted with
  | true =>
    rw [stepAccesses_of_halted hh]
    exact List.nodup_nil
  | false =>
    rw [stepAccesses_of_running hh, writtenAddresses_append, fetchReads, Bus.writtenAddresses_readsFrom,
      writtenAddresses_dataAccesses]
    exact storedAddresses_nodup ..

/-- On any bus that answers its reads alike a step is the same, and leaves that bus as its accesses do (R37, R43). -/
theorem step_withBus {s t : State} {b : Bus} (h : step s = .next t) (hb : b.answers (stepAccesses s)) :
    step { s with bus := b } = .next { t with bus := b.after (stepAccesses s) } := by
  rcases step_cases s with ⟨-, hs⟩ | ⟨hinit, hh, hs⟩ | ⟨hinit, hh, hs⟩
  · rw [hs] at h
    cases h
  · rw [hs] at h
    cases h
    rw [stepAccesses_of_halted hh]
    exact step_of_halted (s := { s with bus := b }) hinit hh
  · rw [hs, exec_eq_next_iff] at h
    obtain ⟨hne, rfl⟩ := h
    rw [stepAccesses_of_running hh, Bus.answers_append] at hb
    obtain ⟨hfetch, hdata⟩ := hb
    have hrun : ({ s with bus := b } : State).Running := ⟨hinit, hh⟩
    have hbegin : ({ s with bus := b } : State).beginStep = { s.beginStep with bus := b } := rfl
    rw [step_of_running hrun, exec_eq_next_iff, stepAccesses_of_running hh, Bus.after_append, ← completed_withBus hdata,
      hbegin, State.fetchInstr_withBus hfetch]
    exact ⟨hne, rfl⟩

/-- A step acts on the bus by its accesses alone. -/
theorem step_bus {s t : State} (h : step s = .next t) : t.bus = s.bus.after (stepAccesses s) := by
  have hsame := step_withBus h (answers_stepAccesses s)
  rw [show ({ s with bus := s.bus } : State) = s from rfl, h] at hsame
  injection hsame with ht
  exact congrArg State.bus ht

/-- `HL` as a number turned into an address is the model's (R7, R53). -/
theorem hl_eq_hlAddress (s : State) : Claims.hl s = s.hlAddress := by
  rw [Claims.hl, ← wordOf_toNat, BitVec.ofNat_toNat, BitVec.setWidth_eq]
  rfl

/-- What an instruction leaves of the bus is what its accesses leave. -/
theorem completed_bus (fm : Form) (s : State) : (completed fm s).bus = s.bus.after (dataAccesses s fm) :=
  congrArg State.bus (completed_withBus (answers_dataAccesses s fm))

end Sys2Proof.Machine
end

section
/-! SUPPORT. Canonical memories are told apart by their bytes, and the bus owner's load puts its bytes one after the other
(R43, R44). -/

namespace Sys2Proof.Machine

/-- Of two canonical memories that read alike neither lists an address below all those of the other. -/
theorem Memory.first_key_le {k k' : Nat} {v v' : Byte} {m m' : Memory} (h : Memory.wf ((k, v) :: m) = true)
    (h' : Memory.wf ((k', v') :: m') = true)
    (hread : ∀ a < 65536, Memory.readAt ((k, v) :: m) a = Memory.readAt ((k', v') :: m') a) : k' ≤ k := by
  obtain ⟨hk, hv, -, -⟩ := wf_cons.1 h
  obtain ⟨-, -, hall', -⟩ := wf_cons.1 h'
  by_contra hlt
  have hunwritten : Memory.readAt ((k', v') :: m') k = unwrittenByte :=
    readAt_of_lt_all fun c hc => by
      rcases List.mem_cons.1 hc with rfl | hc
      · exact Nat.lt_of_not_le hlt
      · exact Nat.lt_trans (Nat.lt_of_not_le hlt) (hall' c hc)
  rw [← hread k hk, readAt_cons, if_pos rfl] at hunwritten
  exact hv hunwritten

/-- No cell of a canonical memory can be left out: it holds a byte an unlisted address does not read as. -/
theorem Memory.cons_read_ne_unwritten {k : Nat} {v : Byte} {m : Memory} (h : Memory.wf ((k, v) :: m) = true)
    (hread : ∀ a < 65536, Memory.readAt ((k, v) :: m) a = unwrittenByte) : False := by
  obtain ⟨hk, hv, -, -⟩ := wf_cons.1 h
  have hcell := hread k hk
  rw [readAt_cons, if_pos rfl] at hcell
  exact hv hcell

/-- Memories in canonical form that read alike are equal. -/
theorem Memory.eq_of_readAt_eq {m m' : Memory} (h : m.wf = true) (h' : m'.wf = true)
    (hread : ∀ a < 65536, m.readAt a = m'.readAt a) : m = m' := by
  induction m generalizing m' with
  | nil =>
    cases m' with
    | nil => rfl
    | cons c m' => exact (cons_read_ne_unwritten h' fun a ha => (hread a ha).symm).elim
  | cons c m ih =>
    obtain ⟨k, v⟩ := c
    cases m' with
    | nil => exact (cons_read_ne_unwritten h hread).elim
    | cons c' m' =>
      obtain ⟨k', v'⟩ := c'
      obtain rfl : k = k' :=
        Nat.le_antisymm (first_key_le h' h fun a ha => (hread a ha).symm) (first_key_le h h' hread)
      obtain ⟨hk, -, hall, hwf⟩ := wf_cons.1 h
      obtain ⟨-, -, hall', hwf'⟩ := wf_cons.1 h'
      obtain rfl : v = v' := by simpa [readAt_cons] using hread k hk
      rw [ih hwf hwf' fun a ha => ?_]
      by_cases hak : a = k
      · rw [hak, readAt_of_lt_all hall, readAt_of_lt_all hall']
      · simpa [readAt_cons, hak] using hread a ha

/-- The load leaves alone every address it does not reach. -/
theorem State.loadImage_mem_read_of_ne {s : State} {base a : Word} {bytes : List Byte}
    (h : ∀ j < bytes.length, a ≠ base + BitVec.ofNat 16 j) : (s.loadImage base bytes).bus.mem.read a = s.bus.mem.read a := by
  induction bytes generalizing s base with
  | nil => rfl
  | cons v rest ih =>
    have hfirst : a ≠ base := by simpa using h 0 (by simp)
    rw [State.loadImage, ih, Memory.read_write_of_ne _ _ hfirst]
    intro j hj
    rw [inc16, BitVec.add_assoc, ← BitVec.ofNat_add, Nat.add_comm 1 j]
    exact h (j + 1) (by simpa using hj)

/-- The load puts byte `k` at `base + k`, wrapping at the top; up to 64 KiB it overwrites none of its own bytes. -/
theorem State.loadImage_mem_read {s : State} {base : Word} {bytes : List Byte} {k : Nat} {v : Byte}
    (hw : s.bus.mem.wf = true) (hlen : bytes.length ≤ 65536) (h : bytes[k]? = some v) :
    (s.loadImage base bytes).bus.mem.read (base + BitVec.ofNat 16 k) = v := by
  induction bytes generalizing s base k with
  | nil => cases h
  | cons v' rest ih =>
    rw [List.length_cons] at hlen
    rw [State.loadImage]
    cases k with
    | zero =>
      obtain rfl : v' = v := by simpa using h
      rw [State.loadImage_mem_read_of_ne, BitVec.add_zero, Memory.read_write_same hw]
      intro j hj
      rw [inc16]
      bv_omega
    | succ k =>
      rw [Nat.add_comm k 1, BitVec.ofNat_add, ← BitVec.add_assoc]
      exact ih (Memory.write_wf hw ..) (by omega) (by simpa using h)

end Sys2Proof.Machine
end

section
/-! SUPPORT. What a device answers is a function of the accesses before and of the address, as any bus's answers are (R43). -/

namespace Sys2Proof.Machine

open Claims

/-- The state a bus machine is in after a list of accesses. -/
def machineAfter {σ : Type} (read : σ → Word → Byte × σ) (write : σ → Word → Byte → σ) : σ → List BusAccess → σ
  | x, [] => x
  | x, .read a _ :: rest => machineAfter read write (read x a).2 rest
  | x, .write a v :: rest => machineAfter read write (write x a v) rest

theorem machineAfter_append {σ : Type} (read : σ → Word → Byte × σ) (write : σ → Word → Byte → σ) (x : σ)
    (l l' : List BusAccess) :
    machineAfter read write x (l ++ l') = machineAfter read write (machineAfter read write x l) l' := by
  induction l generalizing x with
  | nil => rfl
  | cons y rest ih => cases y <;> exact ih _

/-- A bus machine's answers, as a function of the accesses before and of the address. -/
def machineByte {σ : Type} (read : σ → Word → Byte × σ) (write : σ → Word → Byte → σ) (x : σ) (past : List BusAccess)
    (a : Word) : Byte := (read (machineAfter read write x past) a).1

theorem machineAnswers_iff {σ : Type} (read : σ → Word → Byte × σ) (write : σ → Word → Byte → σ) (x : σ)
    (past log : List BusAccess) :
    machineAnswers read write (machineAfter read write x past) log ↔
      answersByHistory (machineByte read write x) past log := by
  induction log generalizing past with
  | nil => rfl
  | cons y rest ih =>
    cases y with
    | read a v =>
      have hrest := ih (past ++ [.read a v])
      rw [machineAfter_append] at hrest
      exact and_congr_right fun _ => hrest
    | write a v =>
      have hrest := ih (past ++ [.write a v])
      rw [machineAfter_append] at hrest
      exact hrest

namespace Bus

/-- A device sees a read (R43). -/
theorem read_at_device {b : Bus} {a : Word} (h : b.isDevice a = true) :
    (b.read a).2 = { b with deviceLog := b.deviceLog ++ [.read a (b.peek a)] } := by
  simp [read, note, h]

/-- A device sees a write, and no byte of memory changes (R43). -/
theorem write_at_device {b : Bus} {a : Word} (v : Byte) (h : b.isDevice a = true) :
    b.write a v = { b with deviceLog := b.deviceLog ++ [.write a v] } := by
  unfold write
  split
  · next hpart => simp [isDevice, hpart] at h
  · next hpart => simp [isDevice, hpart] at h
  · simp [note, h]

/-- ROM ignores a write (R43). -/
theorem write_at_rom {b : Bus} {a : Word} (v : Byte) (h : b.part a = .rom) : b.write a v = b := by
  simp [write, h]

/-- A device in the whole address space answers everywhere. -/
theorem part_of_device_everywhere {b : Bus} {unit : Nat} (h : b.map = [⟨0x0000#16, 65536, .device unit⟩]) (a : Word) :
    b.part a = .device unit := by
  have ha : a.toNat < 65536 := a.isLt
  simp [part, h, partIn, holdsAddress, ha]

theorem answers_of_device_everywhere {b : Bus} {unit : Nat} (log : List BusAccess)
    (h : b.map = [⟨0x0000#16, 65536, .device unit⟩]) :
    b.answers log ↔ answersByHistory (Config.deviceByte unit) b.deviceLog log := by
  induction log generalizing b with
  | nil => rfl
  | cons x rest ih =>
    have hpart := part_of_device_everywhere h
    have hdev (a : Word) : b.isDevice a = true := by rw [isDevice, hpart]
    cases x with
    | read a v =>
      have hpeek : b.peek a = Config.deviceByte unit b.deviceLog a := by rw [peek, hpart]
      rw [answers, answersByHistory, ← hpeek, read_at_device (hdev a)]
      refine and_congr_right fun hv => ?_
      rw [hv]
      exact ih h
    | write a v =>
      rw [answers, answersByHistory, write_at_device v (hdev a)]
      exact ih h

end Bus
end Sys2Proof.Machine
end

section
/-! The obligations of 20_memory.md. -/

namespace Sys2Proof.Proofs

open Machine Claims

/-- Settles O40: an instruction leaves the bus as its accesses do, and they write to the addresses of its form alone. -/
theorem memoryFrame : Obligations.MemoryFrame := by
  intro i s t h
  obtain ⟨-, rfl⟩ := exec_eq_next_iff.1 h
  rw [completed_bus]
  refine ⟨Bus.after_map _, fun a ha => ?_⟩
  rw [← writtenAddresses_dataAccesses] at ha
  exact ⟨Bus.after_mem_read_of_not_written ha, fun hd => Bus.peek_after_of_not_written hd ha⟩

/-- Settles O46: the table of R39 is the fetch of the form's length, then the form's own accesses. -/
theorem busAccessesFollowTheTable : Obligations.BusAccessesFollowTheTable := by
  refine ⟨fun s t hrun h => ?_, fun s t hh h => ?_, fun s => rfl⟩
  · obtain ⟨-, hhalted⟩ := hrun
    rw [step_busLog h, stepAccesses_of_running hhalted, hl_eq_hlAddress]
    have hfetched : s.beginStep.fetchInstr.2.hlAddress = s.hlAddress ∧ s.beginStep.fetchInstr.2.sp = s.sp := by
      rw [State.fetchInstr_snd]
      exact ⟨rfl, rfl⟩
    obtain ⟨hhl, hsp⟩ := hfetched
    rw [← hhl, ← hsp]
    exact (accessTable_eq ..).symm
  · rw [step_busLog h, stepAccesses_of_halted hh]

/-- Settles O47: a step is the same on every bus that answers its accesses alike, its own among them. -/
theorem stepDependsOnlyOnTheBytesItReads : Obligations.StepDependsOnlyOnTheBytesItReads := by
  intro s t h
  have hlog := step_busLog h
  exact ⟨hlog ▸ answers_stepAccesses s, hlog ▸ step_bus h, fun b hb => by rw [step_withBus h (hlog ▸ hb), hlog]⟩

/-- Settles O48: what a list of accesses does to a bus, for the accesses of a step, which write no address twice. -/
theorem onlyBusWritesChangeMemory : Obligations.OnlyBusWritesChangeMemory := by
  intro s t hw h
  rw [step_busLog h, step_bus h]
  refine ⟨fun a ha => ?_, fun a v hmem hram => ?_, fun a => Bus.after_mem_read_of_not_ram _, Bus.after_map _,
    Bus.after_deviceLog (answers_stepAccesses s)⟩
  · exact Bus.after_mem_read_of_not_written fun hmem =>
      have ⟨v, hv⟩ := mem_writtenAddresses.1 hmem
      ha v hv
  · have hread := Bus.after_mem_read_of_written hw hram (stepAccesses_write_once s) hmem
    exact ⟨hread, by rw [Bus.peek_of_memory (by simp [Bus.not_isDevice_of_ram hram]), hread]⟩

/-- Settles O49: the step is the store's, and the next fetch reads its opcode byte from the address stored to. -/
theorem storeIsSeenByTheNextFetch : Obligations.StoreIsSeenByTheNextFetch := by
  intro s src hrun hw hram hop hhl
  rw [hl_eq_hlAddress] at hhl
  have hfetch : s.beginStep.fetchInstr = (.ldAtHLR src, s.beginStep.fetch8.2) :=
    State.fetchInstr_of_op (by rw [← decodeOpcode_ldAtHLR src, ← hop]; rfl)
  refine ⟨completed (.ldAtHLR src) s.beginStep.fetch8.2, ?_, rfl, ?_⟩
  · rw [step_of_running hrun, hfetch, exec_eq_next_iff, Instr.form_ldAtHLR]
    exact ⟨by simp, rfl⟩
  · rw [State.fetchInstr_opcode]
    show ((s.bus.read s.pc).2.write s.hlAddress (s.beginStep.fetch8.2.reg src)).peek (s.pc + 1#16) = s.reg src
    rw [hhl, Bus.peek_write_same _ (by simpa using hw) (by simpa using hram)]
    cases src <;> rfl

/-- Settles O57, part by part; a bus machine's answers depend on the accesses it has seen. -/
theorem busPartsMeetTheContract : Obligations.BusPartsMeetTheContract :=
  ⟨fun m a v hw => ⟨Bus.read_of_memory rfl, rfl, fun a' => Memory.read_write hw a a' v⟩,
    fun b a v => ⟨fun hrom => ⟨Bus.write_at_rom v hrom, Bus.read_of_memory (by simp [Bus.isDevice, hrom])⟩,
      fun hd => ⟨Bus.read_at_device hd, Bus.write_at_device v hd⟩⟩,
    fun σ read write x => ⟨machineByte read write x, machineAnswers_iff read write x []⟩,
    fun b unit log => Bus.answers_of_device_everywhere log⟩

/-- Settles O58, by induction on both memories. -/
theorem equalReadsMeanEqualMemories : Obligations.EqualReadsMeanEqualMemories := fun m m' hw hw' hread =>
  Memory.eq_of_readAt_eq hw hw' fun a ha => by
    simpa [Memory.read, Nat.mod_eq_of_lt ha] using hread (BitVec.ofNat 16 a)

/-- Settles O59, by induction on the bytes. -/
theorem loadImagePlacesTheBytes : Obligations.LoadImagePlacesTheBytes := fun _ _ _ hw hlen _ _ =>
  State.loadImage_mem_read hw hlen

end Sys2Proof.Proofs
end

section
/-! SUPPORT. Decoder and encoder: the bytes of what each slot builds, the decoder by the slot's length, the bytes of each form. -/

namespace Sys2Proof

open Machine

/-- A well-formed instruction and its bytes. -/
def Instr.WrittenAs (i : Instr) (bytes : List Byte) : Prop := i.wf = true ∧ encode i = bytes

/-- Whatever its operand, what the slot of an opcode byte builds is written as that byte and the operand (R51, R53). -/
def Slot.Encodes (op : Byte) : Slot → Prop
  | .empty => (Instr.empty op).WrittenAs [op]
  | .op i => i.WrittenAs [op]
  | .opD8 build => ∀ v, (build v).WrittenAs [op, v]
  | .opR8 build => ∀ v, (build v).WrittenAs [op, v]
  | .opA16 build => ∀ w, (build w).WrittenAs [op, lowByte w, highByte w]

/-- The 256 slots, one by one; an operand stays a variable. -/
theorem dispatchTable_encodes :
    List.Forall₂ (fun n slot => slot.Encodes (BitVec.ofNat 8 n)) (List.range 256) dispatchTable := by
  repeat' constructor
  all_goals exact fun _ => ⟨rfl, rfl⟩

theorem decodeOpcode_encodes (op : Byte) : (decodeOpcode op).Encodes op := by
  obtain ⟨hlen, h⟩ := List.forall₂_iff_get.1 dispatchTable_encodes
  have hop : op.toNat < (List.range 256).length := by simpa using op.isLt
  have hslot : op.toNat < dispatchTable.length := hlen ▸ hop
  rw [decodeOpcode, List.getD_eq_getElem _ _ hslot]
  simpa using h op.toNat hop hslot

/-- Is the slot EMPTY? -/
def Slot.isEmpty : Slot → Bool
  | .empty => true
  | _ => false

theorem Slot.isEmpty_iff {slot : Slot} : slot.isEmpty = true ↔ slot = .empty := by cases slot <;> simp [isEmpty]

set_option maxRecDepth 4000 in
/-- The EMPTY slots lie where R55 lists them. -/
theorem dispatchTable_isEmpty :
    dispatchTable.map Slot.isEmpty = (List.range 256).map fun n => isEmptyByte (BitVec.ofNat 8 n) := by decide

theorem decodeOpcode_eq_empty_iff (op : Byte) : decodeOpcode op = .empty ↔ isEmptyByte op = true := by
  have hslot : (decodeOpcode op).isEmpty = isEmptyByte op :=
    calc (dispatchTable.getD op.toNat .empty).isEmpty
      _ = (dispatchTable.map Slot.isEmpty).getD op.toNat true := (List.getD_map ..).symm
      _ = isEmptyByte op := by simp [dispatchTable_isEmpty, op.isLt]
  rw [← Slot.isEmpty_iff, hslot]

set_option maxRecDepth 4000 in
theorem isEmptyByte_count : (List.range 256).countP (fun n => isEmptyByte (BitVec.ofNat 8 n)) = 133 := by decide

theorem Slot.length_pos (slot : Slot) : 0 < slot.length := by cases slot <;> exact Nat.succ_pos _

/-- A list with all the bytes the opcode asks for decodes to the instruction written as them (R50, R51, R56). -/
theorem decode_of_length_le {op : Byte} {tail : List Byte} (h : (decodeOpcode op).length ≤ tail.length + 1) :
    ∃ i, decode (op :: tail) = .ok (i, tail.drop ((decodeOpcode op).length - 1)) ∧
      i.WrittenAs (op :: tail.take ((decodeOpcode op).length - 1)) := by
  have henc := decodeOpcode_encodes op
  cases hslot : decodeOpcode op with rw [hslot] at h henc
  | empty | op i => exact ⟨_, by simp [decode, hslot, Slot.length], henc⟩
  | opD8 build | opR8 build =>
    match tail with
    | [] => simp [Slot.length] at h
    | v :: rest => exact ⟨build v, by simp [decode, hslot, Slot.length], henc v⟩
  | opA16 build =>
    match tail with
    | [] | [_] => simp [Slot.length] at h
    | lo :: hi :: rest =>
      have hw := henc (wordOf hi lo)
      rw [lowByte_wordOf, highByte_wordOf] at hw
      exact ⟨build (wordOf hi lo), by simp [decode, hslot, Slot.length], hw⟩

/-- A list that ends before the bytes the opcode asks for is rejected by name (R56). -/
theorem decode_of_length_lt {op : Byte} {tail : List Byte} (h : tail.length + 1 < (decodeOpcode op).length) :
    decode (op :: tail) = .error (.missingOperand op) := by
  cases hslot : decodeOpcode op with rw [hslot] at h
  | empty | op i => simp [Slot.length] at h
  | opD8 build | opR8 build =>
    match tail with
    | [] => simp [decode, hslot]
    | _ :: _ => simp [Slot.length] at h
  | opA16 build =>
    match tail with
    | [] | [_] => simp [decode, hslot]
    | _ :: _ :: _ => simp +arith [Slot.length] at h

/-- Inversion of `decode`: what decodes is written as bytes that begin the list, and the rest follows them. -/
theorem writtenAs_of_decode {bytes rest : List Byte} {i : Instr} (h : decode bytes = .ok (i, rest)) :
    ∃ front, i.WrittenAs front ∧ front ++ rest = bytes := by
  match bytes with
  | [] => cases h
  | op :: tail =>
    rcases Nat.lt_or_ge (tail.length + 1) (decodeOpcode op).length with hlt | hle
    · rw [decode_of_length_lt hlt] at h
      cases h
    · obtain ⟨j, hj, hw⟩ := decode_of_length_le hle
      rw [hj] at h
      cases h
      exact ⟨_, hw, congrArg (op :: ·) (List.take_append_drop ..)⟩

/-- Decoding undoes encoding, whatever bytes follow (R50, R51, R53): an EMPTY byte by its slot, a word by its two bytes. -/
theorem decode_encode_append {i : Instr} (rest : List Byte) (hw : i.wf = true) :
    decode (encode i ++ rest) = .ok (i, rest) := by
  cases i with
  | empty op =>
    show decode (op :: rest) = _
    simp [decode, (decodeOpcode_eq_empty_iff op).2 hw]
  | jpA16 w => exact congrArg (fun w => Except.ok (Instr.jpA16 w, rest)) (wordOf_high_low w)
  | callA16 w => exact congrArg (fun w => Except.ok (Instr.callA16 w, rest)) (wordOf_high_low w)
  | _ => rfl

/-! ### The bytes of each form (R54) -/

theorem encode_ldRR (dst src : Reg8) :
    encode (.ldRR dst src) = [BitVec.ofNat 8 (0x40 + 8 * dst.index + src.index)] := by
  cases dst <;> cases src <;> rfl

theorem encode_ldRImm (dst : Reg8) (v : Byte) :
    encode (.ldRImm dst v) = [BitVec.ofNat 8 (0x06 + 8 * dst.index), v] := by
  cases dst <;> rfl

theorem encode_ldRAtHL (dst : Reg8) : encode (.ldRAtHL dst) = [BitVec.ofNat 8 (0x46 + 8 * dst.index)] := by
  cases dst <;> rfl

theorem encode_ldAtHLR (src : Reg8) : encode (.ldAtHLR src) = [BitVec.ofNat 8 (0x70 + src.index)] := by
  cases src <;> rfl

/-- The first byte of an ALU operation's row of register operands (R54). -/
def AluOp.rowByte : AluOp → Nat
  | .add => 0x80
  | .adc => 0x88
  | .sub => 0x90
  | .xor => 0xA8
  | .cp => 0xB8

theorem encode_aluR (op : AluOp) (src : Reg8) : encode (.aluR op src) = [BitVec.ofNat 8 (op.rowByte + src.index)] := by
  cases op <;> cases src <;> rfl

/-- `w[7:0]` is the remainder by 256, `w[15:8]` the quotient (R7). -/
theorem lowByte_eq_mod (w : Word) : lowByte w = BitVec.ofNat 8 (w.toNat % 256) := by
  apply BitVec.eq_of_toNat_eq
  simp [lowByte]

theorem highByte_eq_div (w : Word) : highByte w = BitVec.ofNat 8 (w.toNat / 256) := by
  apply BitVec.eq_of_toNat_eq
  simp [highByte, Nat.shiftRight_eq_div_pow]

theorem encode_jpA16 (w : Word) :
    encode (.jpA16 w) = [0xC3#8, BitVec.ofNat 8 (w.toNat % 256), BitVec.ofNat 8 (w.toNat / 256)] := by
  rw [← lowByte_eq_mod, ← highByte_eq_div]
  rfl

theorem encode_callA16 (w : Word) :
    encode (.callA16 w) = [0xCD#8, BitVec.ofNat 8 (w.toNat % 256), BitVec.ofNat 8 (w.toNat / 256)] := by
  rw [← lowByte_eq_mod, ← highByte_eq_div]
  rfl

end Sys2Proof
end

section
/-! The obligations of 30_encoding.md. -/

namespace Sys2Proof.Proofs

/-- Settles O1, instruction by instruction. -/
theorem decodeOfEncodeIsIdentity : Obligations.DecodeOfEncodeIsIdentity := fun _ => decode_encode_append

/-- Settles O2, by the inversion of `decode`. -/
theorem encodeOfDecodeIsIdentity : Obligations.EncodeOfDecodeIsIdentity := by
  intro bytes i rest h
  obtain ⟨front, ⟨hwf, rfl⟩, happ⟩ := writtenAs_of_decode h
  exact ⟨hwf, happ⟩

/-- Settles O6: the slot's length decides, and what a long enough list decodes to is written as that many bytes. -/
theorem opcodeTellsTheLength : Obligations.OpcodeTellsTheLength := by
  refine fun op tail => ⟨fun hle => ?_, decode_of_length_lt⟩
  obtain ⟨i, hdec, -, henc⟩ := decode_of_length_le hle
  obtain ⟨hop, hoperands⟩ := List.cons.inj henc
  have hpos := (decodeOpcode op).length_pos
  refine ⟨i, hdec, hop, ?_⟩
  rw [Instr.length, hoperands, List.length_take]
  omega

/-- Settles O3: the slots byte by byte, and the count. -/
theorem emptySlotsAreTheListedBytes : Obligations.EmptySlotsAreTheListedBytes :=
  ⟨decodeOpcode_eq_empty_iff, isEmptyByte_count⟩

/-- Settles O4, row by row of the table. -/
theorem opcodeBytesFollowTheTable : Obligations.OpcodeBytesFollowTheTable := fun r r' v w =>
  ⟨encode_ldRR r r', encode_ldRImm r v, encode_ldRAtHL r, encode_ldAtHLR r, encode_aluR .add r, encode_aluR .adc r,
    encode_aluR .sub r, encode_aluR .xor r, encode_aluR .cp r, rfl, rfl, rfl, rfl, rfl, rfl, rfl, rfl, rfl, rfl,
    encode_jpA16 w, encode_callA16 w, rfl, rfl, rfl, rfl, rfl, rfl⟩

/-- Settles O5: each word read through the table. -/
theorem sampleWordsDecode : Obligations.SampleWordsDecode :=
  ⟨rfl, rfl, rfl, rfl, rfl, rfl, rfl, rfl, rfl, rfl, rfl⟩

end Sys2Proof.Proofs
end

section
/-! SUPPORT. The frame of a step: what is fetched for an opcode byte and for the bytes at pc, that no instruction is refused, and
that a pop undoes a push. -/

namespace Sys2Proof.Machine

theorem dec16_inc16 (w : Word) (k : Nat) : dec16 (inc16 w k) k = w := BitVec.add_sub_cancel ..

theorem inc16_dec16 (w : Word) (k : Nat) : inc16 (dec16 w k) k = w := BitVec.sub_add_cancel ..

/-- The two bytes of a word lie at two addresses, at the wrap too (R8). -/
theorem inc16_one_ne (w : Word) : inc16 w 1 ≠ w := by
  rw [inc16]
  bv_omega

/-- The upper of the two addresses a push writes to. -/
theorem inc16_dec16_two_one (w : Word) : inc16 (dec16 w 2) 1 = w - 1#16 := by
  rw [inc16, dec16]
  bv_omega

/-- The handler of an EMPTY slot reports the address before the pc it runs at (R74, R151). -/
theorem exec_empty (op : Byte) (s : State) : exec (.empty op) s = .fault (.unimplementedOpcode op (dec16 s.pc 1)) := rfl

/-- No instruction is refused: an EMPTY slot faults, every other form completes (R154). -/
theorem exec_ne_refused (i : Instr) (s : State) (r : Refusal) : exec i s ≠ .refused r := by
  rw [exec_eq_execForm]
  cases i.form with
  | empty op => nofun
  | _ =>
    rw [execForm_eq_next _ (by simp)]
    nofun

/-- Two bytes written to RAM at two addresses are read back, one after the other (R37). -/
theorem Bus.peek_after_write_twice {b : Bus} {lo hi : Word} (v w : Byte) (hw : b.mem.wf = true) (hlo : b.part lo = .ram)
    (hhi : b.part hi = .ram) (hne : lo ≠ hi) :
    ((b.write lo v).write hi w).peek lo = v ∧ (((b.write lo v).write hi w).read lo).2.peek hi = w := by
  constructor
  · rw [Bus.peek_write_of_ne w (by simp [Bus.not_isDevice_of_ram hlo]) hne, Bus.peek_write_same v hw hlo]
  · rw [Bus.peek_read_of_memory (by simp [Bus.not_isDevice_of_ram hhi]),
      Bus.peek_write_same w (Bus.write_wf hw lo v) (by simpa using hhi)]

namespace State

variable {s : State}

/-- Where RAM answers at the two stack addresses a pop undoes a push (R80, R81). -/
theorem pop16_push16 (w : Word) (hw : s.bus.mem.wf = true) (hlo : s.bus.part (dec16 s.sp 2) = .ram)
    (hhi : s.bus.part (inc16 (dec16 s.sp 2) 1) = .ram) :
    (s.push16 w).pop16.1 = w ∧ (s.push16 w).pop16.2.sp = s.sp := by
  obtain ⟨hlow, hhigh⟩ := Bus.peek_after_write_twice (lowByte w) (highByte w) hw hlo hhi (inc16_one_ne _).symm
  simp only [pop16_eq, push16_eq, hlow, hhigh, wordOf_high_low, inc16_dec16, and_self]

/-- The fetch of a byte without a handler ends at that byte (R74). -/
theorem fetchInstr_of_empty (h : decodeOpcode (s.bus.peek s.pc) = .empty) :
    s.fetchInstr = (.empty (s.bus.peek s.pc), s.fetch8.2) := by
  simp [fetchInstr, fetch8_eq, h]

theorem fetchInstr_of_opA16 {build : Word → Instr} (h : decodeOpcode (s.bus.peek s.pc) = .opA16 build) :
    s.fetchInstr = (build s.fetch8.2.fetch16.1, s.fetch8.2.fetch16.2) := by
  simp [fetchInstr, fetch8_eq, h]

/-- The fetch is of the instruction the bytes at pc decode to, and of its bytes alone (R72, R73, R75). -/
theorem fetchInstr_of_decode {i : Instr} {rest : List Byte} (h : decode (s.bus.bytesFrom s.pc 3) = .ok (i, rest)) :
    s.fetchInstr = (i, s.afterFetch i.length) := by
  have hinstr := fetchInstr_fst_of_decode h
  exact Prod.ext hinstr (by rw [fetchInstr_snd_eq, hinstr, Instr.length_eq_form_length])

end State
end Sys2Proof.Machine
end

section
/-! The obligations of 40_dispatch.md. -/

namespace Sys2Proof.Proofs

open Machine

/-- Settles O12: of the three cases of a step one is the refusal, and no instruction is refused. -/
theorem stepRefusedExactlyBeforeInit : Obligations.StepRefusedExactlyBeforeInit := by
  intro s r
  rcases step_cases s with ⟨hinit, hs⟩ | ⟨hinit, -, hs⟩ | ⟨hinit, -, hs⟩
  · simp [hs, hinit, eq_comm]
  · simp [hs, hinit]
  · simp [hs, hinit, exec_ne_refused]

/-- Settles O55: the two bytes are read back from the two addresses, which differ at every sp. -/
theorem popUndoesPush : Obligations.PopUndoesPush := fun s w hw hlo hhi =>
  State.pop16_push16 w hw hlo (by rwa [inc16_dec16_two_one])

/-- Settles O7, by the fetch of the decoded instruction. -/
theorem stepRunsTheDecodedInstruction : Obligations.StepRunsTheDecodedInstruction := by
  intro s i rest hrun hdec
  rw [step_of_running hrun, State.fetchInstr_of_decode (s := s.beginStep) hdec]
  rfl

/-- Settles O8, by the halted case of the step. -/
theorem haltedStepOnlyTicks : Obligations.HaltedStepOnlyTicks := fun _ hinit hh => step_of_halted hinit hh

/-- Settles O9: the handler of an EMPTY slot reports the byte, and one less than the pc the fetch of that byte advanced. -/
theorem emptyOpcodeReportsByteAndAddress : Obligations.EmptyOpcodeReportsByteAndAddress := by
  refine ⟨fun s hrun hempty => ?_, exec_empty⟩
  calc step s
    _ = exec (.empty (s.bus.peek s.pc)) s.atFault := by
      rw [step_of_running hrun, State.fetchInstr_of_empty (s := s.beginStep) ((decodeOpcode_eq_empty_iff _).2 hempty)]
      rfl
    _ = .fault (.unimplementedOpcode (s.bus.peek s.pc) (dec16 (inc16 s.pc 1) 1)) := exec_empty ..
    _ = .fault (.unimplementedOpcode (s.bus.peek s.pc) s.pc) := by rw [dec16_inc16]

/-- Settles O54: the word of the two bytes fetched, and the slots of JP and CALL. -/
theorem sixteenBitOperandIsLittleEndian : Obligations.SixteenBitOperandIsLittleEndian := by
  refine ⟨fun s => ⟨?_, ?_⟩, fun s => ⟨fun hop => ?_, fun hop => ?_⟩⟩
  · rw [State.fetch16_eq, wordOf_toNat, Nat.add_comm]
    rfl
  · rw [State.fetch16_eq]
    rfl
  · exact State.fetchInstr_of_opA16 (by rw [hop]; rfl)
  · exact State.fetchInstr_of_opA16 (by rw [hop]; rfl)

end Sys2Proof.Proofs
end

section
/-! SUPPORT. The outcome of a registered form by its name, and what a load into a register leaves unchanged (R85 to R88). -/

namespace Sys2Proof.Machine

open Claims

theorem exec_of_form {i : Instr} {fm : Form} (s : State) (hform : i.form = fm) (hne : ∀ op, fm ≠ .empty op) :
    exec i s = .next (completed fm s) :=
  exec_eq_next_iff.2 ⟨hform ▸ hne, by rw [hform]⟩

/-- A form that writes a register and no flag is one of the three loads: it moves neither sp nor pc, and its accesses, if it makes
any, write to no address. -/
theorem completed_load_restKept {fm : Form} {dst : Reg8} (s : State) (hdest : fm.dest = some dst)
    (hflags : fm.writesFlags = false) : RestKept s (completed fm s) := by
  have hmem (hlog : writtenAddresses (dataAccesses s fm) = []) (a : Word) :
      (completed fm s).bus.mem.read a = s.bus.mem.read a := by
    rw [completed_bus, Bus.after_mem_read_of_not_written (by simp [hlog])]
  cases fm with
  | ldRR | ldRImm | ldRAtHL =>
    exact ⟨completed_f_of_not_writesFlags s rfl, completed_sp .., completed_pc .., completed_halted s (by simp),
      completed_ime .., completed_initialised .., hmem rfl⟩
  | aluR | aluAtHL | aluImm => cases hflags
  | _ => cases hdest

theorem completed_load_reg_of_ne {fm : Form} {dst r : Reg8} (s : State) (hdest : fm.dest = some dst) (hr : r ≠ dst) :
    (completed fm s).reg r = s.reg r :=
  completed_reg s (by simpa [hdest] using hr.symm)

/-- The immediate costs more than the register copy (R87, R177). -/
theorem cycleCost_ldRR_lt_ldRD8 : cycleCost .ldRR < cycleCost .ldRD8 := by
  simp only [cycleCost, cycleTable]
  omega

end Sys2Proof.Machine
end

section
/-! The obligations of 41_load_move.md. -/

namespace Sys2Proof.Proofs

open Machine

/-- Settles O14: the register write reads back, and the form makes no bus access. -/
theorem loadRegRegCopies : Obligations.LoadRegRegCopies := fun dst src s =>
  ⟨encode_ldRR dst src, completed (.ldRR dst src) s, exec_of_form s (Instr.form_ldRR dst src) nofun, by simp [completed],
    fun _ => completed_load_reg_of_ne s rfl, completed_load_restKept s rfl rfl, completed_bus .., by simp [completed],
    completed_cycleCount rfl⟩

/-- Settles O15: as a register copy, with the immediate as the value and its own cost. -/
theorem loadRegImmediate : Obligations.LoadRegImmediate := fun dst v s =>
  ⟨encode_ldRImm dst v, completed (.ldRImm dst v) s, exec_of_form s (Instr.form_ldRImm dst v) nofun, by simp [completed],
    fun _ => completed_load_reg_of_ne s rfl, completed_load_restKept s rfl rfl, completed_bus .., by simp [completed],
    completed_cycleCount rfl, cycleCost_ldRR_lt_ldRD8⟩

/-- Settles O16: the one access of the form is the read at HL, formed from the state before the register write. -/
theorem loadRegFromMemory : Obligations.LoadRegFromMemory := by
  intro dst s
  rw [hl_eq_hlAddress]
  exact ⟨encode_ldRAtHL dst, completed (.ldRAtHL dst) s, exec_of_form s (Instr.form_ldRAtHL dst) nofun,
    by simp [completed], fun _ => completed_load_reg_of_ne s rfl, completed_load_restKept s rfl rfl, completed_bus ..,
    completed_busLog .., completed_cycleCount rfl⟩

/-- Settles O17: the form is one write at HL; RAM keeps the byte, and no write reaches another address. -/
theorem storeRegToMemory : Obligations.StoreRegToMemory := by
  intro src s hw
  rw [hl_eq_hlAddress]
  exact ⟨encode_ldAtHLR src, completed (.ldAtHLR src) s, exec_of_form s (Instr.form_ldAtHLR src) nofun, rfl, rfl,
    Bus.peek_write_same _ hw, fun a ha => ⟨Bus.write_mem_read_of_ne _ ha, fun hd => Bus.peek_write_of_ne _ hd ha⟩⟩

end Sys2Proof.Proofs
end

section
/-! SUPPORT. What an ALU instruction leaves, in the terms of the claims: once over the three operand forms, once per primitive
(R100 to R103). -/

namespace Sys2Proof.Machine

open Claims

/-- What an ALU operation leaves once the accesses that bring its operand are made: they change the bus and its record alone. -/
def State.aluOutcome (s : State) (op : AluOp) (v : Byte) (cost : CycleEntry) (log : List BusAccess) : State :=
  { s with bus := s.bus.after log, busLog := s.busLog ++ log }.aluWriteBack op v cost

theorem exec_aluR (op : AluOp) (src : Reg8) (s : State) :
    exec (.aluR op src) s = .next (s.aluOutcome op (s.reg src) .aluR []) := by
  rw [exec_of_form s (Instr.form_aluR op src) nofun, completed, State.aluOutcome, List.append_nil]
  rfl

theorem exec_aluAtHL (op : AluOp) (s : State) :
    exec (.aluAtHL op) s = .next (s.aluOutcome op (s.bus.peek (hl s)) .aluHL [.read (hl s) (s.bus.peek (hl s))]) := by
  rw [exec_of_form s (Instr.form_aluAtHL op) nofun, hl_eq_hlAddress]
  rfl

theorem exec_aluImm (op : AluOp) (v : Byte) (s : State) :
    exec (.aluImm op v) s = .next (s.aluOutcome op v .aluD8 []) := by
  rw [exec_of_form s (Instr.form_aluImm op v) nofun, completed, State.aluOutcome, List.append_nil]
  rfl

/-- What holds of an operation's outcome for every operand, cost and accesses holds in each of its three forms (R103). -/
theorem exec_alu_forms {P : State → Byte → CycleEntry → List BusAccess → Prop} {op : AluOp} {s : State}
    (h : ∀ v cost log, P (s.aluOutcome op v cost log) v cost log) :
    (∀ r, ∃ t, exec (.aluR op r) s = .next t ∧ P t (s.reg r) .aluR []) ∧
    (∃ t, exec (.aluAtHL op) s = .next t ∧
      P t (s.bus.peek (hl s)) .aluHL [.read (hl s) (s.bus.peek (hl s))]) ∧
    (∀ v, ∃ t, exec (.aluImm op v) s = .next t ∧ P t v .aluD8 []) :=
  ⟨fun r => ⟨_, exec_aluR op r s, h ..⟩, ⟨_, exec_aluAtHL op s, h ..⟩, fun v => ⟨_, exec_aluImm op v s, h ..⟩⟩

/-- The outcome has what the primitive computes: the result in A (never for CP), and the four flags (R103). -/
theorem aluOutcome_effect {s : State} (op : AluOp) {v : Byte} {r : AluResult}
    (h : aluCompute op s.a v (s.f.getLsbD 4) = r) (cost : CycleEntry) (log : List BusAccess) :
    AluEffect s (s.aluOutcome op v cost log) (if writesA op then r.res else s.a) r.z r.n r.h r.c cost log := by
  rw [AluEffect, ← flagsByte_eq_flagsValue, State.aluOutcome, State.aluWriteBack_eq, ← h]
  rfl

/-- ADD is ADC with the carry flag clear (R108). -/
theorem aluOutcome_adc_of_carry_clear {s : State} (h : s.f.getLsbD 4 = false) (v : Byte) (cost : CycleEntry)
    (log : List BusAccess) : s.aluOutcome .adc v cost log = s.aluOutcome .add v cost log := by
  have hcompute : aluCompute .adc s.a v (s.f.getLsbD 4) = aluCompute .add s.a v (s.f.getLsbD 4) := by
    rw [h]
    rfl
  exact (aluOutcome_effect .adc hcompute cost log).trans (aluOutcome_effect .add rfl cost log).symm

/-! ### The primitives in the arithmetic of the claims -/

theorem aluAdd_eq (a b : Byte) (cin : Bool) : aluAdd a b cin =
    { res := BitVec.ofNat 8 ((a.toNat + b.toNat + cin.toNat) % 256)
      z := decide ((a.toNat + b.toNat + cin.toNat) % 256 = 0)
      n := false
      h := decide (a.toNat % 16 + b.toNat % 16 + cin.toNat > 15)
      c := decide (a.toNat + b.toNat + cin.toNat > 255) } := by
  have hres (t : Nat) : BitVec.ofNat 8 t = BitVec.ofNat 8 (t % 256) := by bv_omega
  have hz (t : Nat) : BitVec.ofNat 8 t = 0#8 ↔ t % 256 = 0 := by
    rw [← BitVec.toNat_inj]
    simp
  simp only [aluAdd, lowNibble_eq_mod, hz, ← hres]

/-- A difference is zero exactly for equal operands. -/
theorem aluSub_eq (a b : Byte) : aluSub a b =
    { res := difference a b
      z := decide (a = b)
      n := true
      h := decide (a.toNat % 16 < b.toNat % 16)
      c := decide (a.toNat < b.toNat) } := by
  have hres : BitVec.ofInt 8 ((a.toNat : Int) - (b.toNat : Int)) = difference a b := by
    rw [difference]
    bv_omega
  have hz : difference a b = 0#8 ↔ a = b := by
    rw [difference]
    bv_omega
  simp only [aluSub, hres, hz, lowNibble_eq_mod]

theorem aluXor_eq (a b : Byte) :
    aluXor a b = { res := a ^^^ b, z := decide (a = b), n := false, h := false, c := false } := by
  simp only [aluXor, BitVec.xor_eq_zero_iff]

end Sys2Proof.Machine
end

section
/-! The obligations of 42_alu.md. -/

namespace Sys2Proof.Proofs

open Machine Claims

/-- Settles O23: the two operations have one outcome in every form. -/
theorem adcWithoutCarryIsAdd : Obligations.AdcWithoutCarryIsAdd := by
  intro s hcarry
  simp only [exec_aluR, exec_aluAtHL, exec_aluImm, aluOutcome_adc_of_carry_clear hcarry, implies_true, and_self]

/-- Settles O18, by the additive primitive with the carry-in clear. -/
theorem addResult : Obligations.AddResult := fun s =>
  have ⟨hreg, hmem, himm⟩ := exec_alu_forms (P := fun t v => SumEffect s t v false)
    fun v => aluOutcome_effect .add (aluAdd_eq s.a v false)
  ⟨fun r => ⟨encode_aluR .add r, hreg r⟩, ⟨rfl, hmem⟩, fun v => ⟨rfl, himm v⟩⟩

/-- Settles O19, by the additive primitive with the carry flag as carry-in. -/
theorem adcResult : Obligations.AdcResult := fun s =>
  have ⟨hreg, hmem, himm⟩ := exec_alu_forms (P := fun t v => SumEffect s t v (s.f.getLsbD 4))
    fun v => aluOutcome_effect .adc (aluAdd_eq s.a v _)
  ⟨fun r => ⟨encode_aluR .adc r, hreg r⟩, ⟨rfl, hmem⟩, fun v => ⟨rfl, himm v⟩⟩

/-- Settles O20, by the subtractive primitive. -/
theorem subResult : Obligations.SubResult := fun s =>
  exec_alu_forms (P := fun t v => DifferenceEffect s t (difference s.a v) v)
    fun v => aluOutcome_effect .sub (aluSub_eq s.a v)

/-- Settles O21, by the bitwise primitive. -/
theorem xorResult : Obligations.XorResult := fun s =>
  exec_alu_forms (P := fun t v => AluEffect s t (s.a ^^^ v) (decide (s.a = v)) false false false)
    fun v => aluOutcome_effect .xor (aluXor_eq s.a v)

/-- Settles O22: CP computes as SUB does and does not write A. -/
theorem compareResult : Obligations.CompareResult := fun s =>
  exec_alu_forms (P := fun t v => DifferenceEffect s t s.a v)
    fun v => aluOutcome_effect .cp (aluSub_eq s.a v)

end Sys2Proof.Proofs
end

section
/-! SUPPORT. Control transfer: where the jumps go in the arithmetic of the claims, what reads back of CALL's writes, and the steps
that fetch an instruction with a handler (R72, R130 to R144). -/

namespace Sys2Proof.Machine

/-- A word as the number its two bytes make (R7). -/
theorem wordOf_eq_ofNat (hi lo : Byte) : wordOf hi lo = BitVec.ofNat 16 (lo.toNat + 256 * hi.toNat) := by
  rw [Nat.add_comm, ← wordOf_toNat, BitVec.ofNat_toNat, BitVec.setWidth_eq]

/-- The target of a relative jump as the sum of two numbers (R144). -/
theorem relativeTarget_eq_ofInt (pc : Word) (r8 : Byte) :
    relativeTarget pc r8 = BitVec.ofInt 16 ((pc.toNat : Int) + r8.toInt) := by
  rw [BitVec.ofInt_add, BitVec.ofInt_natCast, BitVec.ofNat_toNat, BitVec.setWidth_eq]
  rfl

/-- The four conditional jumps are one meaning, by the value of their condition (R144). -/
theorem exec_jr {cc : Cond} {s : State} {taken : Bool} (r8 : Byte) (h : s.cond cc = taken) :
    exec (.jr cc r8) s = .next { s with
      pc := if taken then BitVec.ofInt 16 ((s.pc.toNat : Int) + r8.toInt) else s.pc
      cycleCount := s.cycleCount + cycleCost (if taken then .jrTaken else .jrNotTaken) } := by
  rw [exec_of_form s (Instr.form_jr cc r8) nofun, ← relativeTarget_eq_ofInt, ← h]
  rfl

/-- A jump taken costs more than one not taken (R134, R177). -/
theorem cycleCost_jrNotTaken_lt_jrTaken : cycleCost .jrNotTaken < cycleCost .jrTaken := by
  simp only [cycleCost, cycleTable]
  omega

/-- Where RAM answers, a byte an instruction writes reads back: none writes an address twice (R37). -/
theorem completed_bus_peek_of_write {fm : Form} {s : State} {a : Word} {v : Byte} (hw : s.bus.mem.wf = true)
    (hram : s.bus.part a = .ram) (h : BusAccess.write a v ∈ dataAccesses s fm) : (completed fm s).bus.peek a = v := by
  have honce : (writtenAddresses (dataAccesses s fm)).Nodup := by
    rw [writtenAddresses_dataAccesses]
    exact storedAddresses_nodup ..
  rw [completed_bus, Bus.peek_of_memory (by simp [Bus.not_isDevice_of_ram hram]),
    Bus.after_mem_read_of_written hw hram honce h]

/-- Two bytes of memory are still read, one after the other, after a read of any address. -/
theorem Bus.answers_after_read {b : Bus} {lo hi : Word} {v w : Byte} (p : Word) (hlo : b.isDevice lo = false)
    (hhi : b.isDevice hi = false) (hv : b.peek lo = v) (hw : b.peek hi = w) :
    (b.read p).2.answers [.read lo v, .read hi w] := by
  refine ⟨?_, ?_, trivial⟩
  · rw [peek_read_of_memory hlo, hv]
  · rw [peek_read_of_memory (by simpa using hhi), peek_read_of_memory hhi, hw]

/-! ### The fetch of an instruction with a handler -/

namespace State

variable (s : State)

/-- What is fetched is well formed: EMPTY only for a byte R55 lists. -/
theorem fetchInstr_wf : s.fetchInstr.1.wf = true := by
  have h := decodeOpcode_encodes (s.bus.peek s.pc)
  simp only [fetchInstr, fetch8_eq]
  cases hslot : decodeOpcode (s.bus.peek s.pc) with rw [hslot] at h
  | empty | op i => exact h.1
  | opD8 build | opR8 build | opA16 build => exact (h _).1

variable {s}

/-- A byte with a handler is fetched as an instruction of a registered form (R73). -/
theorem fetchInstr_form_ne_empty (h : isEmptyByte (s.bus.peek s.pc) = false) (op : Byte) :
    s.fetchInstr.1.form ≠ .empty op := by
  intro hform
  have hinstr : s.fetchInstr.1 = .empty op := Instr.eq_of_form_eq hform
  have hwf := s.fetchInstr_wf
  have hop := s.fetchInstr_opcode
  rw [hinstr] at hwf hop
  rw [← hop] at h
  exact Bool.false_ne_true (h.symm.trans hwf)

/-- Of all bytes `0x76` alone is fetched as HALT (R54). -/
theorem fetchInstr_form_ne_halt (h : s.bus.peek s.pc ≠ 0x76#8) : s.fetchInstr.1.form ≠ .halt := by
  intro hform
  have hinstr : s.fetchInstr.1 = .halt := Instr.eq_of_form_eq hform
  have hop := s.fetchInstr_opcode
  rw [hinstr] at hop
  exact h hop.symm

end State

/-- A running core completes a registered form, run with pc past its bytes (R18, R79, R154). -/
theorem step_of_fetched_form {s : State} {fm : Form} (hrun : s.Running) (hform : s.beginStep.fetchInstr.1.form = fm)
    (hne : ∀ op, fm ≠ .empty op) : step s = .next (completed fm (s.beginStep.afterFetch fm.length)) := by
  rw [step_of_running hrun, exec_of_form _ hform hne, State.fetchInstr_snd_eq, hform]

theorem step_of_op {s : State} {i : Instr} (hrun : s.Running) (h : decodeOpcode (s.bus.peek s.pc) = .op i)
    (hne : ∀ op, i.form ≠ .empty op) : step s = .next (completed i.form (s.beginStep.afterFetch i.form.length)) :=
  step_of_fetched_form hrun (by rw [State.fetchInstr_of_op (s := s.beginStep) h]) hne

theorem step_of_call_byte {s : State} (hrun : s.Running) (hop : s.bus.peek s.pc = 0xCD#8) :
    ∃ a16, step s = .next (completed (.call a16) (s.beginStep.afterFetch 3)) := by
  have hfetch := State.fetchInstr_of_opA16 (s := s.beginStep) (build := .callA16) (congrArg decodeOpcode hop)
  exact ⟨_, step_of_fetched_form hrun (by rw [hfetch]; rfl) nofun⟩

/-! ### A return after a call (R142) -/

/-- RET takes pc from the word the bus answers with at sp and above it (R133). -/
theorem step_ret_of_answers {s : State} {w : Word} (hrun : s.Running) (hop : s.bus.peek s.pc = 0xC9#8)
    (h : (s.bus.read s.pc).2.answers [.read s.sp (lowByte w), .read (inc16 s.sp 1) (highByte w)]) :
    ∃ u, step s = .next u ∧ u.pc = w ∧ u.sp = inc16 s.sp 2 := by
  obtain ⟨hlow, hhigh, -⟩ := h
  refine ⟨_, step_of_op (i := .ret) hrun (congrArg decodeOpcode hop) nofun, ?_, completed_sp ..⟩
  rw [completed_pc, State.pop16_eq]
  exact (congrArg₂ wordOf hhigh hlow).trans (wordOf_high_low w)

variable {s : State} {a16 : Word}

/-- RET right after CALL goes back to the pc that was pushed, and puts sp back. -/
theorem step_ret_after_call (hrun : s.Running)
    (hop : (completed (.call a16) s).bus.peek (completed (.call a16) s).pc = 0xC9#8)
    (h : ((completed (.call a16) s).bus.read (completed (.call a16) s).pc).2.answers
      [.read (dec16 s.sp 2) (lowByte s.pc), .read (inc16 (dec16 s.sp 2) 1) (highByte s.pc)]) :
    ∃ u, step (completed (.call a16) s) = .next u ∧ u.pc = s.pc ∧ u.sp = s.sp := by
  obtain ⟨hinit, hhalted⟩ := hrun
  have hsp : (completed (.call a16) s).sp = dec16 s.sp 2 := completed_sp ..
  have hrun' : (completed (.call a16) s).Running :=
    ⟨(completed_initialised ..).trans hinit, (completed_halted s (by simp)).trans hhalted⟩
  obtain ⟨u, hu, hpc, husp⟩ := step_ret_of_answers hrun' hop (by rwa [hsp])
  exact ⟨u, hu, hpc, by rw [husp, hsp, inc16_dec16]⟩

/-- Where RAM answers, the bytes CALL wrote are read back after the fetch of the next opcode, wherever that lies. -/
theorem answers_after_call (p : Word) (hw : s.bus.mem.wf = true) (hlo : s.bus.part (dec16 s.sp 2) = .ram)
    (hhi : s.bus.part (inc16 (dec16 s.sp 2) 1) = .ram) :
    ((completed (.call a16) s).bus.read p).2.answers
      [.read (dec16 s.sp 2) (lowByte s.pc), .read (inc16 (dec16 s.sp 2) 1) (highByte s.pc)] := by
  have hmemory {a : Word} (hram : s.bus.part a = .ram) : (completed (.call a16) s).bus.isDevice a = false := by
    rw [completed_bus, Bus.isDevice_after, Bus.not_isDevice_of_ram hram]
  exact Bus.answers_after_read p (hmemory hlo) (hmemory hhi) (completed_bus_peek_of_write hw hlo (by simp [dataAccesses]))
    (completed_bus_peek_of_write hw hhi (by simp [dataAccesses]))

end Sys2Proof.Machine
end

section
/-! The obligations of 43_control_transfer.md. -/

namespace Sys2Proof.Proofs

open Machine

/-- Settles O30: the call runs with pc past its three bytes, and RET pops what the bus answers; RAM answers what CALL wrote. -/
theorem callThenReturnRestores : Obligations.CallThenReturnRestores := by
  intro s hrun hop
  rw [← inc16_dec16_two_one, ← lowByte_eq_mod, ← highByte_eq_div]
  obtain ⟨a16, hcall⟩ := step_of_call_byte hrun hop
  have hrun' : (s.beginStep.afterFetch 3).Running := hrun
  refine ⟨_, hcall, fun hret hanswers => step_ret_after_call hrun' hret hanswers, fun hret hw hlo hhi => ?_⟩
  have hpart (a : Word) : (s.beginStep.afterFetch 3).bus.part a = s.bus.part a := Bus.part_after ..
  exact step_ret_after_call hrun' hret
    (answers_after_call _ (Bus.after_wf hw _) ((hpart _).trans hlo) ((hpart _).trans hhi))

/-- Settles O36: every byte with a handler completes, and of those HALT alone sets `halted`. -/
theorem controlStateMachine : Obligations.ControlStateMachine := by
  intro s hinit
  refine ⟨fun hh hempty hop => ?_, fun hh hop => ?_, fun hh hempty => ?_, fun hh => ⟨_, step_of_halted hinit hh, hh⟩⟩
  · refine ⟨_, step_of_fetched_form ⟨hinit, hh⟩ rfl (State.fetchInstr_form_ne_empty (s := s.beginStep) hempty), ?_⟩
    exact (completed_halted _ (State.fetchInstr_form_ne_halt (s := s.beginStep) hop)).trans hh
  · exact ⟨_, step_of_op (i := .halt) ⟨hinit, hh⟩ (congrArg decodeOpcode hop) nofun, rfl⟩
  · obtain ⟨hstep, -⟩ := emptyOpcodeReportsByteAndAddress
    exact ⟨_, hstep s ⟨hinit, hh⟩ hempty⟩

/-- Settles O24, by the form's meaning. -/
theorem jumpAbsolute : Obligations.JumpAbsolute := fun w _ => ⟨encode_jpA16 w, rfl⟩

/-- Settles O25: the two writes of the push are the form's accesses, and no other address is written. -/
theorem callPushesAndJumps : Obligations.CallPushesAndJumps := by
  intro w s hw
  have hexec : exec (.callA16 w) s = .next (completed (.call w) s) := exec_of_form s rfl nofun
  obtain ⟨-, hframe⟩ := memoryFrame _ s _ hexec
  refine ⟨encode_callA16 w, _, hexec, ?_, fun hram => ?_, fun hram => ?_, fun a hlo hhi => ?_⟩
  · rw [completed, State.push16_eq, inc16_dec16_two_one, lowByte_eq_mod, highByte_eq_div]
    rfl
  · rw [← lowByte_eq_mod]
    exact completed_bus_peek_of_write hw hram (by simp [dataAccesses])
  · rw [← highByte_eq_div]
    exact completed_bus_peek_of_write hw hram (by simp [dataAccesses])
  · exact hframe a (by simp [storedAddresses, Instr.form, hlo, hhi])

/-- Settles O26: the word popped, as a number; the reads change no byte of memory. -/
theorem returnPopsIntoPc : Obligations.ReturnPopsIntoPc := by
  refine fun s => ⟨rfl, ?_, fun a => by simp⟩
  rw [exec_of_form s (fm := .ret) rfl nofun, completed, State.pop16_eq, wordOf_eq_ofNat]
  rfl

/-- Settles O27: the conditional jump whose condition is that bit 7 of F is clear. -/
theorem jumpIfZeroClear : Obligations.JumpIfZeroClear := fun v _ =>
  ⟨rfl, fun hz => exec_jr (cc := .nz) (taken := true) v (congrArg not hz),
    fun hz => exec_jr (cc := .nz) (taken := false) v (congrArg not hz), cycleCost_jrNotTaken_lt_jrTaken⟩

/-- Settles O28: each condition is its bit of F. -/
theorem conditionalJumps : Obligations.ConditionalJumps := fun v s cc => exec_jr v (by cases cc <;> rfl)

/-- Settles O29, by the form's meaning. -/
theorem haltSetsHalted : Obligations.HaltSetsHalted := fun _ => ⟨rfl, rfl⟩

end Sys2Proof.Proofs
end

section
/-! SUPPORT. Which steps fault (R150): a byte with a handler is fetched as an instruction that completes. -/

namespace Sys2Proof.Machine

/-- A registered instruction completes on every operand and state (R154). -/
theorem exec_of_registered {i : Instr} (s : State) (hne : ∀ op, i ≠ .empty op) : exec i s = .next (completed i.form s) :=
  exec_of_form s rfl fun op hform => hne op (Instr.eq_of_form_eq hform)

/-- A running core completes the step of every byte R55 does not list (R154). -/
theorem step_of_registered_byte {s : State} (hrun : s.Running) (h : isEmptyByte (s.bus.peek s.pc) = false) :
    ∃ t, step s = .next t :=
  ⟨_, step_of_fetched_form hrun rfl (State.fetchInstr_form_ne_empty (s := s.beginStep) h)⟩

/-- Inversion of a faulting step: the core was running and fetched a byte without a handler (R150). -/
theorem running_and_empty_of_step_eq_fault {s : State} {r : Fault} (h : step s = .fault r) :
    s.Running ∧ isEmptyByte (s.bus.peek s.pc) = true := by
  rcases step_cases s with ⟨-, hs⟩ | ⟨-, -, hs⟩ | ⟨hinit, hh, -⟩
  · cases hs.symm.trans h
  · cases hs.symm.trans h
  · refine ⟨⟨hinit, hh⟩, ?_⟩
    by_contra hempty
    obtain ⟨t, ht⟩ := step_of_registered_byte ⟨hinit, hh⟩ (Bool.eq_false_of_not_eq_true hempty)
    cases ht.symm.trans h

end Sys2Proof.Machine
end

section
/-! The obligations of 60_exceptions.md. -/

namespace Sys2Proof.Proofs

open Machine

/-- Settles O10: a step that faults fetched an EMPTY byte, and the fault of that byte is the only one. -/
theorem faultExactlyOnEmptyOpcode : Obligations.FaultExactlyOnEmptyOpcode := by
  intro s r
  obtain ⟨hstep, -⟩ := emptyOpcodeReportsByteAndAddress
  constructor
  · intro h
    obtain ⟨hrun, hempty⟩ := running_and_empty_of_step_eq_fault h
    rw [hstep s hrun hempty] at h
    cases h
    exact ⟨hrun, hempty, rfl⟩
  · rintro ⟨hrun, hempty, rfl⟩
    exact hstep s hrun hempty

/-- Settles O13: a registered form completes, and a step that faults has the fault of the EMPTY byte at pc. -/
theorem registeredInstructionsAlwaysComplete : Obligations.RegisteredInstructionsAlwaysComplete := by
  refine ⟨fun i s hne => ⟨_, exec_of_registered s hne⟩, fun s r h => ?_⟩
  obtain ⟨-, hempty, hr⟩ := (faultExactlyOnEmptyOpcode s r).1 h
  exact ⟨_, _, hr, hempty, rfl, rfl⟩

/-- Settles O11: the state a fault leaves is the one after `fetch8`, where the fetch of an EMPTY byte ends. -/
theorem faultLeavesOnlyTheFetch : Obligations.FaultLeavesOnlyTheFetch := by
  refine fun s => ⟨?_, fun hempty => State.fetchInstr_of_empty (s := s.beginStep) ((decodeOpcode_eq_empty_iff _).2 hempty)⟩
  rw [State.atFault, State.fetch8_eq]
  rfl

/-- Settles O56: each pair is the word of its two bytes, and the dump reads no other field. -/
theorem dumpShowsTheSixWords : Obligations.DumpShowsTheSixWords := fun _ _ _ _ =>
  ⟨rfl, rfl, wordOf_toNat .., wordOf_toNat .., wordOf_toNat .., wordOf_toNat .., rfl⟩

end Sys2Proof.Proofs
end

section
/-! SUPPORT. Runs, one step at a time (R153, R178, R180): the equations of `run` and `runCost`, how a longer run ends, and that
what ends halted goes on so. -/

namespace Sys2Proof.Machine

variable {s t u : State} {k : Nat} {r : Fault}

theorem run_succ_of_next (h : step s = .next u) : run (k + 1) s = run k u := by rw [run, h]

theorem run_succ_of_fault (h : step s = .fault r) : run (k + 1) s = .fault r := by rw [run, h]

theorem run_succ_of_refused {r : Refusal} (h : step s = .refused r) : run (k + 1) s = .refused r := by rw [run, h]

theorem runCost_succ_of_next (h : step s = .next u) : runCost (k + 1) s = stepCost s + runCost k u := by rw [runCost, h]

/-- Inversion of a completed run: its first step completes, and the rest of it does. -/
theorem run_succ_eq_next (h : run (k + 1) s = .next t) : ∃ u, step s = .next u ∧ run k u = .next t := by
  cases hs : step s with
  | next u => exact ⟨u, rfl, run_succ_of_next hs ▸ h⟩
  | fault r => cases (run_succ_of_fault hs).symm.trans h
  | refused r => cases (run_succ_of_refused hs).symm.trans h

/-- Inversion of a faulting run: its first step faults, or it completes and the rest of the run faults. -/
theorem run_succ_eq_fault (h : run (k + 1) s = .fault r) :
    step s = .fault r ∨ ∃ u, step s = .next u ∧ run k u = .fault r := by
  cases hs : step s with
  | next u => exact .inr ⟨u, rfl, run_succ_of_next hs ▸ h⟩
  | fault r' => exact .inl ((run_succ_of_fault hs).symm.trans h)
  | refused r' => cases (run_succ_of_refused hs).symm.trans h

/-- A halted core stays halted (R71). -/
theorem step_halted_of_halted (hh : s.halted = true) (h : step s = .next t) : t.halted = true := by
  rcases step_eq_next h with ⟨-, rfl⟩ | ⟨hrunning, -, -⟩
  · exact hh
  · cases hrunning.symm.trans hh

/-- The rest of a run that reaches the halted state reaches it too. -/
theorem EndsHalted.step_next (hend : EndsHalted s) (h : step s = .next u) : EndsHalted u := by
  obtain ⟨k, t, hrun, hh⟩ := hend
  cases k with
  | zero =>
    cases hrun
    exact ⟨0, u, rfl, step_halted_of_halted hh h⟩
  | succ k =>
    obtain ⟨u', hstep, hrest⟩ := run_succ_eq_next hrun
    cases hstep.symm.trans h
    exact ⟨k, t, hrest, hh⟩

/-- The next step of a run that reaches the halted state does not fault: it is the halted tick, or a step of that run. -/
theorem EndsHalted.step_ne_fault (hend : EndsHalted s) : step s ≠ .fault r := by
  intro h
  obtain ⟨k, t, hrun, hh⟩ := hend
  cases k with
  | zero =>
    cases hrun
    obtain ⟨⟨-, hrunning⟩, -⟩ := running_and_empty_of_step_eq_fault h
    cases hrunning.symm.trans hh
  | succ k => cases (run_succ_of_fault h).symm.trans hrun

theorem EndsHalted.run_ne_fault (hend : EndsHalted s) : run k s ≠ .fault r := by
  induction k generalizing s with
  | zero => nofun
  | succ k ih =>
    intro h
    rcases run_succ_eq_fault h with hfault | ⟨u, hstep, hrest⟩
    · exact hend.step_ne_fault hfault
    · exact ih (hend.step_next hstep) hrest

end Sys2Proof.Machine
end

section
/-! SUPPORT. Nothing reads the counter (R173): the fetch, the meanings, the step and the run are the same from any count, and what
they add to it is the same. -/

namespace Sys2Proof.Machine

open Claims

/-- The state with its counter ahead by `n`. -/
def State.addCycles (s : State) (n : Nat) : State := { s with cycleCount := s.cycleCount + n }

theorem State.fetchInstr_addCycles (s : State) (n : Nat) :
    (s.addCycles n).fetchInstr = (s.fetchInstr.1, s.fetchInstr.2.addCycles n) := by
  simp only [State.addCycles, State.fetchInstr, State.fetch8_eq]
  cases decodeOpcode (s.bus.peek s.pc) <;> rfl

/-- From any count an instruction leaves every field but the counter alike. -/
theorem completed_withCount (fm : Form) (s : State) (m : Nat) :
    completed fm { s with cycleCount := m } =
      { completed fm s with cycleCount := (completed fm { s with cycleCount := m }).cycleCount } := by
  cases fm with
  | ldRR dst src => cases dst <;> cases src <;> rfl
  | ldRImm dst | ldRAtHL dst => cases dst <;> rfl
  | ldAtHLR src => cases src <;> rfl
  | aluR op src => cases op <;> cases src <;> rfl
  | aluAtHL op | aluImm op => cases op <;> rfl
  | jr cc r8 => cases cc <;> rfl
  | _ => rfl

/-- A registered form adds the same cost to any count. -/
theorem completed_addCycles {fm : Form} (s : State) (n : Nat) (hne : ∀ op, fm ≠ .empty op) :
    completed fm (s.addCycles n) = (completed fm s).addCycles n := by
  obtain ⟨e, he⟩ := Form.exists_cycleEntry s.cond hne
  have hcond : (s.addCycles n).cond = s.cond := funext (State.cond_congr rfl)
  have hcount : (completed fm (s.addCycles n)).cycleCount = (completed fm s).cycleCount + n :=
    calc (completed fm (s.addCycles n)).cycleCount
      _ = s.cycleCount + n + cycleCost e := completed_cycleCount (hcond ▸ he)
      _ = s.cycleCount + cycleCost e + n := Nat.add_right_comm ..
      _ = (completed fm s).cycleCount + n := by rw [completed_cycleCount he]
  calc completed fm (s.addCycles n)
    _ = { completed fm s with cycleCount := (completed fm (s.addCycles n)).cycleCount } := completed_withCount ..
    _ = (completed fm s).addCycles n := by rw [hcount, State.addCycles]

theorem exec_addCycles (i : Instr) (s : State) (n : Nat) :
    exec i (s.addCycles n) = mapNext (·.addCycles n) (exec i s) := by
  rw [exec_eq_execForm, exec_eq_execForm]
  cases hform : i.form with
  | empty op => rfl
  | _ =>
    rw [execForm_eq_next _ (by simp), execForm_eq_next _ (by simp), completed_addCycles _ _ (by simp)]
    rfl

theorem State.haltedTick_addCycles (s : State) (n : Nat) : (s.addCycles n).haltedTick = s.haltedTick.addCycles n :=
  congrArg (fun m => { s.beginStep with cycleCount := m }) (Nat.add_right_comm ..)

theorem step_addCycles (s : State) (n : Nat) : step (s.addCycles n) = mapNext (·.addCycles n) (step s) := by
  rcases step_cases s with ⟨hinit, hs⟩ | ⟨hinit, hh, hs⟩ | ⟨hinit, hh, hs⟩
  · rw [hs, step, if_neg (by simpa [State.addCycles] using hinit)]
    rfl
  · rw [hs, step_of_halted (s := s.addCycles n) hinit hh, State.haltedTick_addCycles]
    rfl
  · rw [hs, step_of_running (s := s.addCycles n) ⟨hinit, hh⟩, ← exec_addCycles,
      show (s.addCycles n).beginStep = s.beginStep.addCycles n from rfl, State.fetchInstr_addCycles]

theorem run_addCycles (k : Nat) (s : State) (n : Nat) : run k (s.addCycles n) = mapNext (·.addCycles n) (run k s) := by
  induction k generalizing s with
  | zero => rfl
  | succ k ih =>
    have hstep := step_addCycles s n
    cases hs : step s with rw [hs] at hstep
    | next u => rw [run_succ_of_next hstep, run_succ_of_next hs, ih]
    | fault r =>
      rw [run_succ_of_fault hstep, run_succ_of_fault hs]
      rfl
    | refused r =>
      rw [run_succ_of_refused hstep, run_succ_of_refused hs]
      rfl

end Sys2Proof.Machine
end

section
/-! SUPPORT. The free choice behind a CYCLES table, and back (R177). -/

namespace Sys2Proof.Machine

/-- The choice that gives a table: what each entry has above the least that R177 asks of it. -/
def cycleChoice (table : CycleEntry → Nat) : CycleEntry → Nat
  | .haltedStep => table .haltedStep - 1
  | .ldRD8 => table .ldRD8 - (table .ldRR + 1)
  | .ldRHL => table .ldRHL - (table .ldRR + 1)
  | .ldHLR => table .ldHLR - (table .ldRR + 1)
  | .aluD8 => table .aluD8 - (table .aluR + 1)
  | .aluHL => table .aluHL - (table .aluR + 1)
  | .jrTaken => table .jrTaken - (table .jrNotTaken + 1)
  | e => table e - table .haltedStep

/-- Every table R177 allows comes from a choice. -/
theorem cycleTable_cycleChoice {table : CycleEntry → Nat} (h : CyclesOk table) : cycleTable (cycleChoice table) = table := by
  obtain ⟨hpos, hmin, _, _, _, _, _, _⟩ := h
  have hhalted := hpos .haltedStep
  have hcopy := hmin .ldRR
  have halu := hmin .aluR
  have hjump := hmin .jrNotTaken
  funext e
  have he := hmin e
  cases e <;> simp only [cycleTable, cycleChoice] <;> omega

/-- Every choice gives a table R177 allows. -/
theorem cycleTable_ok (choice : CycleEntry → Nat) : CyclesOk (cycleTable choice) := by
  constructor
  · intro e
    cases e <;> simp only [cycleTable] <;> omega
  · intro e
    cases e <;> simp only [cycleTable] <;> omega
  all_goals
    simp only [cycleTable]
    omega

end Sys2Proof.Machine
end

section
/-! SUPPORT. A word placed where the next step fetches it: memory answers at its addresses with its bytes (R44, R174). -/

namespace Sys2Proof.Machine

namespace Bus

/-- A window of one byte of RAM before the others takes its address from a device and no other. -/
theorem isDevice_behind_ram (b : Bus) (base a : Word) :
    { b with map := ⟨base, 1, .ram⟩ :: b.map }.isDevice a = (!decide (a = base) && b.isDevice a) := by
  have hholds : holdsAddress ⟨base, 1, .ram⟩ a = decide (a = base) := by
    rw [holdsAddress, ← Bool.decide_and, decide_eq_decide]
    bv_omega
  simp only [isDevice, part, partIn, hholds]
  by_cases h : a = base <;> simp [h]

/-- Where memory answers with a list of bytes, they are the bytes read one after the other. -/
theorem bytesFrom_of_memory {b : Bus} {a : Word} {bytes : List Byte}
    (h : ∀ k v, bytes[k]? = some v →
      b.isDevice (a + BitVec.ofNat 16 k) = false ∧ b.mem.read (a + BitVec.ofNat 16 k) = v) :
    b.bytesFrom a bytes.length = bytes := by
  induction bytes generalizing a with
  | nil => rfl
  | cons v rest ih =>
    obtain ⟨hmemory, hread⟩ := h 0 v rfl
    rw [BitVec.add_zero] at hmemory hread
    rw [List.length_cons, bytesFrom, read_of_memory hmemory, peek_of_memory hmemory, hread, ih]
    intro k w hk
    rw [BitVec.add_assoc, ← BitVec.ofNat_add, Nat.add_comm]
    exact h (k + 1) w hk

end Bus

namespace State

/-- After the cover memory answers where it did before and at the `k` addresses from `base` on. -/
theorem coverWithMemory_isDevice {s : State} {base a : Word} {k : Nat}
    (h : s.bus.isDevice a = false ∨ ∃ j < k, a = base + BitVec.ofNat 16 j) :
    (s.coverWithMemory base k).bus.isDevice a = false := by
  induction k generalizing s base with
  | zero => simpa [coverWithMemory] using h
  | succ k ih =>
    rw [coverWithMemory]
    refine ih ?_
    rcases h with hmemory | ⟨j, hj, rfl⟩
    · left
      split <;> simp [Bus.isDevice_behind_ram, hmemory]
    · cases j with
      | zero =>
        left
        split
        · simp [Bus.isDevice_behind_ram]
        · next hmemory => simpa using hmemory
      | succ j =>
        refine .inr ⟨j, Nat.lt_of_succ_lt_succ hj, ?_⟩
        rw [inc16, BitVec.add_assoc, ← BitVec.ofNat_add, Nat.add_comm]

variable (s : State) (nbits w : Nat)

/-- The placing of a word changes the bus, and makes the machine initialised and running. -/
theorem withFetchWord_eq : s.withFetchWord nbits w =
    { s with bus := (s.withFetchWord nbits w).bus, halted := false, initialised := true } := by
  unfold withFetchWord
  rw [coverWithMemory_eq, loadImage_eq]

variable {s}

/-- The bytes read at pc are those of the word. -/
theorem withFetchWord_bytesFrom (hw : s.bus.mem.wf = true) :
    (s.withFetchWord nbits w).bus.bytesFrom s.pc 3 = tableBytes nbits w := by
  refine Bus.bytesFrom_of_memory (bytes := tableBytes nbits w) fun k v hk => ⟨?_, ?_⟩
  · exact coverWithMemory_isDevice (.inr ⟨k, (List.getElem?_eq_some_iff.1 hk).1, rfl⟩)
  · have hload := loadImage_mem_read (base := s.pc) hw (bytes := tableBytes nbits w) (by simp [tableBytes]) hk
    rw [withFetchWord, coverWithMemory_eq]
    exact hload

end State

theorem decode_of_decodeTableWord {nbits w : Nat} {i : Instr} (h : decodeTableWord nbits w = some i) :
    ∃ rest, decode (tableBytes nbits w) = .ok (i, rest) := by
  unfold decodeTableWord at h
  split at h
  · next j rest hdec =>
    cases h
    exact ⟨rest, hdec⟩
  · cases h

/-- The step after the placing runs the word's instruction, after the fetch of its bytes. -/
theorem step_withFetchWord {s : State} {nbits w : Nat} {i : Instr} (hw : s.bus.mem.wf = true)
    (h : decodeTableWord nbits w = some i) :
    step (s.withFetchWord nbits w) = exec i ((s.withFetchWord nbits w).beginStep.afterFetch i.length) := by
  obtain ⟨rest, hdec⟩ := decode_of_decodeTableWord h
  have hpc : (s.withFetchWord nbits w).pc = s.pc := by rw [State.withFetchWord_eq]
  rw [← State.withFetchWord_bytesFrom nbits w hw, ← hpc] at hdec
  rw [step_of_running ⟨rfl, rfl⟩, State.fetchInstr_of_decode (s := (s.withFetchWord nbits w).beginStep) hdec]

end Sys2Proof.Machine
end

section
/-! The obligations of 70_reset_and_hazards.md. -/

namespace Sys2Proof.Proofs

open Machine

/-- Settles O42, by induction on the steps: each is the same from another count, with the count shifted. -/
theorem counterInfluencesNothing : Obligations.CounterInfluencesNothing := fun s n k => run_addCycles k s n

/-- Settles O44, by induction on the steps: each adds its entry, which is positive. -/
theorem counterIsTheSumOfTheCosts : Obligations.CounterIsTheSumOfTheCosts := by
  intro k
  induction k with
  | zero =>
    intro s t h
    cases h
    exact ⟨rfl, Nat.le_refl _⟩
  | succ k ih =>
    intro s t h
    obtain ⟨u, hstep, hrest⟩ := run_succ_eq_next h
    obtain ⟨hcost, hlt⟩ := counterStrictlyIncreases s u hstep
    obtain ⟨hsum, hle⟩ := ih u t hrest
    rw [runCost_succ_of_next hstep]
    omega

/-- Settles O45: the choice behind an allowed table is what its entries have above the bounds of R177. -/
theorem cycleTablesAreExactlyTheAllowedOnes : Obligations.CycleTablesAreExactlyTheAllowedOnes := by
  refine fun table => ⟨fun h => ⟨cycleChoice table, cycleTable_cycleChoice h⟩, ?_⟩
  rintro ⟨choice, rfl⟩
  exact cycleTable_ok choice

/-- Settles O50: every step of a run that halts goes on to the halted state, and none of them faults. -/
theorem haltedRunsNeverFault : Obligations.HaltedRunsNeverFault := by
  rintro s hend r ⟨k, hfault⟩
  exact hend.run_ne_fault hfault

/-- Settles O60: the step runs the instruction the placed bytes decode to, and the placing changes no register. -/
theorem placedWordIsRunNext : Obligations.PlacedWordIsRunNext := by
  intro s nbits w i hw h
  refine ⟨_, step_withFetchWord hw h, ?_⟩
  rw [State.withFetchWord_eq]
  exact ⟨rfl, rfl, fun r => by cases r <;> rfl, rfl⟩

/-- Settles O31, field by field. -/
theorem initSetsTheStartupState : Obligations.InitSetsTheStartupState := fun _ _ =>
  ⟨rfl, rfl, rfl, rfl, rfl, rfl, rfl, rfl, rfl, rfl, rfl, rfl, rfl, rfl, rfl⟩

end Sys2Proof.Proofs
end

section
/-! The obligations of 95_test_vectors.md. -/

namespace Sys2Proof.Machine

/-- The dump right after `init` shows the parameters, the bytes paired into words (R163, R170). -/
theorem State.dump_init (p : ResetParams) (b : Bus) :
    (State.init p b).dump =
      { pc := p.pc, sp := p.sp, af := wordOf p.a p.f, bc := wordOf p.b p.c, de := wordOf p.d p.e, hl := wordOf p.h p.l } := rfl

end Sys2Proof.Machine

namespace Sys2Proof.Proofs

open Machine

/-- Settles O32: the dump after `init` shows the parameters, and those of the reset are `resetValues`. -/
theorem resetDumpIsTheSuggestedOne : Obligations.ResetDumpIsTheSuggestedOne := by
  rw [Obligations.ResetDumpIsTheSuggestedOne, State.reset, State.dump_init]
  decide

end Sys2Proof.Proofs
end
